-- ==== Sys2Proof/Word.lean ====
section
/-! DEFINITION. The word types of the block: bytes, 32-bit words and 7-bit device addresses (00_scope.md R6). -/

namespace Sys2Proof

/-- An 8-bit value: a byte of the bus, of the data buffer, of the checksum. -/
abbrev Byte := BitVec 8

/-- A 32-bit value: a register of the host window, a command word. -/
abbrev Word := BitVec 32

/-- A 7-bit device address (20_memory.md R45). -/
abbrev DevAddr := BitVec 7

/-- A 16-bit sample value `tmp` (10_state.md R11). -/
abbrev Sample := BitVec 16

end Sys2Proof
end

