-- ==== Sys2Proof/Syntax.lean ====
section
/-! DEFINITION. The thirteen commands of 30_encoding.md R62, with the operands of R61 and R63 as they stand in the word:
`a` is field ADDR, `r` field REG, and `n` or `d` the eight bits of field IMM. -/

namespace Sys2Proof

/-- A command of the block, one constructor per row of the opcode table. -/
inductive Instr where
  /-- RDREG `a, r, n`: read with register pointer (R81). -/
  | rdreg (a : DevAddr) (r : Byte) (n : Byte)
  /-- RDNR `a, n`: read without register pointer (R82). -/
  | rdnr (a : DevAddr) (n : Byte)
  /-- WRREG `a, r, d`: single-byte write with register pointer (R83). -/
  | wrreg (a : DevAddr) (r : Byte) (d : Byte)
  /-- WRCMD `a, r`: zero-payload command write (R84). -/
  | wrcmd (a : DevAddr) (r : Byte)
  /-- CRC8 `n`: check `D[0 .. n-1]` against `D[n]` (R101). -/
  | crc8 (n : Byte)
  /-- PACK: assemble `tmp` from the data buffer (R110). -/
  | pack
  /-- CONVT: temperature conversion (R117). -/
  | convt
  /-- CONVH: humidity conversion (R118). -/
  | convh
  /-- MEAST: measure temperature (R130). -/
  | meast
  /-- MEASH: measure relative humidity (R131). -/
  | meash
  /-- GETUR: read the user register (R140). -/
  | getur
  /-- SETUR `d`: write the user register (R141). -/
  | setur (d : Byte)
  /-- SRST: soft reset of the sensor (R142). -/
  | srst
deriving DecidableEq, Repr

end Sys2Proof
end

