-- ==== Sys2Proof/WellFormed.lean ====
section
/-! DEFINITION. When a term of `Instr` is a legal command: the operand ranges of 30_encoding.md R62 ("also") and R63. -/

namespace Sys2Proof

/-- LEN of the read commands is 1, 2 or 3 (R61, R62). -/
def lenOk (n : Byte) : Bool := 1 ≤ n.toNat && n.toNat ≤ 3

/-- N of CRC8 is 0, 1 or 2 (R61, R62). -/
def countOk (n : Byte) : Bool := n.toNat ≤ 2

/-- The operands are in the ranges R63 calls legal. -/
def Instr.wf : Instr → Bool
  | .rdreg _ _ n => lenOk n
  | .rdnr _ n => lenOk n
  | .wrreg _ _ _ => true
  | .wrcmd _ _ => true
  | .crc8 n => countOk n
  | .pack => true
  | .convt => true
  | .convh => true
  | .meast => true
  | .meash => true
  | .getur => true
  | .setur _ => true
  | .srst => true

end Sys2Proof
end

