-- ==== Sys2Proof/Decode.lean ====
section
/-! DEFINITION. Command words: the fields of 30_encoding.md R60, the opcode map R62, the decode procedure R67 (total on
all 2^32 words, an illegal word rejected by name), and the encoder of R60, R61 and R68. -/

namespace Sys2Proof

/-! ## Fields (R60) -/

/-- Field `OPC`, bits 31:24. -/
def opcField (w : Word) : Byte := w.extractLsb' 24 8

/-- Field `Z23`, bit 23: 0 in every legal word. -/
def z23Field (w : Word) : BitVec 1 := w.extractLsb' 23 1

/-- Field `ADDR`, bits 22:16. -/
def addrField (w : Word) : DevAddr := w.extractLsb' 16 7

/-- Field `REG`, bits 15:8. -/
def regField (w : Word) : Byte := w.extractLsb' 8 8

/-- Field `IMM`, bits 7:0. -/
def immField (w : Word) : Byte := w.extractLsb' 0 8

/-- A word from its fields, with `Z23 = 0` (R60). -/
def wordOfFields (opc : Byte) (a : DevAddr) (r imm : Byte) : Word := opc ++ 0#1 ++ a ++ r ++ imm

/-! ## Opcode map (R62) -/

/-- The name of a row of the opcode map. -/
inductive Op where
  | rdreg | rdnr | wrreg | wrcmd | crc8 | pack | convt | convh | meast | meash | getur | setur | srst
deriving DecidableEq, Repr

/-- One row of the opcode map: a word `w` has the row's shape when `w & mask = pattern`. -/
structure OpRow where
  op      : Op
  opc     : Byte
  pattern : Word
  mask    : Word
deriving DecidableEq, Repr

/-- The thirteen rows of R62 (the column "also" is `alsoCheck`). -/
def opTable : List OpRow :=
  [⟨.rdreg, 0x01, 0x01000000, 0xFF8000FC⟩,
   ⟨.rdnr,  0x02, 0x02000000, 0xFF80FFFC⟩,
   ⟨.wrreg, 0x03, 0x03000000, 0xFF800000⟩,
   ⟨.wrcmd, 0x04, 0x04000000, 0xFF8000FF⟩,
   ⟨.crc8,  0x10, 0x10000000, 0xFFFFFFFC⟩,
   ⟨.pack,  0x11, 0x11000000, 0xFFFFFFFF⟩,
   ⟨.convt, 0x12, 0x12000000, 0xFFFFFFFF⟩,
   ⟨.convh, 0x13, 0x13000000, 0xFFFFFFFF⟩,
   ⟨.meast, 0x20, 0x20000000, 0xFFFFFFFF⟩,
   ⟨.meash, 0x21, 0x21000000, 0xFFFFFFFF⟩,
   ⟨.getur, 0x30, 0x30000000, 0xFFFFFFFF⟩,
   ⟨.setur, 0x31, 0x31000000, 0xFFFFFF00⟩,
   ⟨.srst,  0x32, 0x32000000, 0xFFFFFFFF⟩]

/-! ## Decoding (R65, R67) -/

/-- Why a word is illegal (R65). -/
inductive DecodeError where
  /-- `OPC` is not one of the thirteen values. -/
  | unknownOpcode
  /-- A bit the format demands to be zero is set. -/
  | nonZeroBits
  /-- `LEN = 0` in RDREG or RDNR. -/
  | lengthZero
  /-- `N = 3` in CRC8. -/
  | countThree
deriving DecidableEq, Repr

/-- The condition in the column "also" of R62; `none` when it holds. -/
def alsoCheck (op : Op) (w : Word) : Option DecodeError :=
  match op with
  | .rdreg | .rdnr => if immField w = 0 then some .lengthZero else none
  | .crc8 => if immField w = 3 then some .countThree else none
  | .wrreg | .wrcmd | .pack | .convt | .convh | .meast | .meash | .getur | .setur | .srst => none

/-- The command of a row with the operands of R63. -/
def commandOf (op : Op) (w : Word) : Instr :=
  match op with
  | .rdreg => .rdreg (addrField w) (regField w) (immField w)
  | .rdnr => .rdnr (addrField w) (immField w)
  | .wrreg => .wrreg (addrField w) (regField w) (immField w)
  | .wrcmd => .wrcmd (addrField w) (regField w)
  | .crc8 => .crc8 (immField w)
  | .pack => .pack
  | .convt => .convt
  | .convh => .convh
  | .meast => .meast
  | .meash => .meash
  | .getur => .getur
  | .setur => .setur (immField w)
  | .srst => .srst

/-- The row whose `OPC` the word has (R67, step 1). -/
def rowOf (w : Word) : Option OpRow := opTable.find? (fun row => row.opc == opcField w)

/-- The decode procedure of R67, steps 1 to 4. -/
def decode (w : Word) : Except DecodeError Instr :=
  match rowOf w with
  | none => .error .unknownOpcode
  | some row =>
    if w &&& row.mask = row.pattern then
      match alsoCheck row.op w with
      | some e => .error e
      | none => .ok (commandOf row.op w)
    else .error .nonZeroBits

/-! ## Encoding (R60, R61, R68) -/

/-- The word of a command. -/
def encode : Instr → Word
  | .rdreg a r n => wordOfFields 0x01 a r n
  | .rdnr a n => wordOfFields 0x02 a 0 n
  | .wrreg a r d => wordOfFields 0x03 a r d
  | .wrcmd a r => wordOfFields 0x04 a r 0
  | .crc8 n => wordOfFields 0x10 0 0 n
  | .pack => wordOfFields 0x11 0 0 0
  | .convt => wordOfFields 0x12 0 0 0
  | .convh => wordOfFields 0x13 0 0 0
  | .meast => wordOfFields 0x20 0 0 0
  | .meash => wordOfFields 0x21 0 0 0
  | .getur => wordOfFields 0x30 0 0 0
  | .setur d => wordOfFields 0x31 0 0 d
  | .srst => wordOfFields 0x32 0 0 0

/-! ## Words as the opcode table numbers them -/

/-- The word whose `nbits` table bits are `w`, the bits above them 0. A command word is a number written whole, without a
byte order (20_memory.md R47), so the table's numbering is the word's (log entry 15). -/
def wordOfTableBits (nbits w : Nat) : Word := BitVec.ofNat 32 (w % 2 ^ nbits)

/-- The command the decoder reads from the table's bits; `none` where it refuses. -/
def decodeTableWord (nbits w : Nat) : Option Instr := (decode (wordOfTableBits nbits w)).toOption

end Sys2Proof
end

