-- ==== Sys2Proof/Config.lean ====
section
/-! DEFINITION. The implementation parameters of 00_scope.md R5 and the free values of the model.
A parameter the spec leaves OPEN, and a free value, is a constant without a body: no proof can see what it is. -/

namespace Sys2Proof

/-- The answer of the bus transactor to `writeByte` (60_exceptions.md R166). -/
inductive Ack where
  | ack
  | nack
deriving DecidableEq, Repr, Inhabited

/-- `DEV_ADDR`, OPEN (R5, D9; log entry 6). -/
opaque Config.devAddr : DevAddr

/-- `CMD_TRIG_T`, OPEN (R5, D9; log entry 6). -/
opaque Config.cmdTrigT : Byte

/-- `CMD_TRIG_RH`, OPEN (R5, D9; log entry 6). -/
opaque Config.cmdTrigRh : Byte

/-- `CMD_RD_USER`, OPEN (R5, D9, C4; log entry 6). -/
opaque Config.cmdRdUser : Byte

/-- `CMD_WR_USER`, OPEN (R5, D9, C4; log entry 6). -/
opaque Config.cmdWrUser : Byte

/-- `CMD_SOFT_RESET`, OPEN (R5, D9; log entry 6). -/
opaque Config.cmdSoftReset : Byte

/-- `T_SETTLE`, OPEN, in milliseconds. The block does not enforce it (R181, D26), so no meaning reads it (log entry 7). -/
opaque Config.tSettle : Nat

/-- `POLL_MAX` (R5, R163). -/
def Config.pollMax : BitVec 7 := 85

/-- `POLL_DELAY` in milliseconds (R5). The model has no time (R164), so no meaning reads it (log entry 7). -/
def Config.pollDelay : Nat := 1

/-- `CRC_POLY` (R5, R100). -/
def Config.crcPoly : BitVec 9 := 0x131

/-- `CRC_SEED` (R5, R100). -/
def Config.crcSeed : Byte := 0x00

/-- `SAMPLE_LEN` (R5). -/
def Config.sampleLen : Nat := 3

/-- `BUF_DEPTH` (R5, D7). -/
def Config.bufDepth : Nat := 3

/-- The free answer number `n` of the bus transactor to `writeByte`: the spec constrains no answer (R167; log entry 4). -/
opaque Config.freeAck : Nat → Ack

/-- The free byte number `n` the bus transactor returns to `readByte` (R167; log entry 4). -/
opaque Config.freeByte : Nat → Byte

end Sys2Proof
end

