-- ==== Sys2Proof/Machine/State.lean ====
section
/-! DEFINITION. The state of the block (10_state.md R10 to R26), of what surrounds it (host queue, transactor answers,
histories), the state after reset (R33), and the reasons a step can stop. -/

namespace Sys2Proof.Machine

/-- `PHASE`: where the sequencer stands in the running command (R24). -/
inductive Phase where
  | idle | prim | trig | delay | poll | fin | pure
deriving DecidableEq, Repr

/-- `STATUS.ERRKIND` (60_exceptions.md R150); the codes are `ErrKind.code`. -/
inductive ErrKind where
  | none | busError | dataError | cmdError
deriving DecidableEq, Repr

/-- `STATUS.CAUSE` and `CAUSE_P` (R151); the codes are `Cause.code`. -/
inductive Cause where
  | none | nackAddrW | nackReg | nackData | nackAddrR | pollExhausted | crcMismatch | badCommand
deriving DecidableEq, Repr

/-- `STATUS.RKIND`: which formula a reading was made with (R22). -/
inductive Quantity where
  | temperature | humidity
deriving DecidableEq, Repr

/-- The fields of `STATUS` (R16). Its reserved bits have no storage: the word is `Status.word`. -/
structure Status where
  busy    : Bool
  done    : Bool
  fail    : Bool
  errKind : ErrKind
  cause   : Cause
  crcOk   : Bool
  rvalid  : Bool
  rkind   : Quantity
  sbits   : BitVec 2
  rxcnt   : BitVec 2
  pollcnt : BitVec 7
deriving DecidableEq, Repr

/-- Three bytes: the data buffer `D[0..2]` (R10) and the working buffer `T[0..2]` (R26). -/
structure Buf where
  b0 : Byte
  b1 : Byte
  b2 : Byte
deriving DecidableEq, Repr

/-- One external call with its answer, as the event traces of R80 and R164 write it. -/
inductive Call where
  /-- `S` -/
  | start
  /-- `P` -/
  | stop
  /-- `W(b):ack` or `W(b):nack` -/
  | writeByte (b : Byte) (answer : Ack)
  /-- `R:b` -/
  | readByte (b : Byte)
  /-- `ACK` -/
  | sendAck
  /-- `NACK` -/
  | sendNack
  /-- `DLY` -/
  | delay
deriving DecidableEq, Repr

/-- One entry of the host's queue: an access, a reset, or a turn left to the block (log entries 1 and 3). -/
inductive HostAct where
  /-- A read of `width` bytes at byte offset `off`: `MemRead(off, 4)` when `width` is 4 (20_memory.md R41, R44). -/
  | read (off width : Nat)
  /-- A write of `width` bytes at byte offset `off`: `MemWrite(off, 4, v)` when `width` is 4 (R42 to R44). -/
  | write (off width : Nat) (v : Word)
  /-- The reset event (70_reset_and_hazards.md R175). -/
  | reset
  /-- The host makes no access: the block's turn. -/
  | pause
  /-- The host polls `STATUS` until `DONE` is set (30_encoding.md R68): the block's turn until then. -/
  | awaitDone
deriving DecidableEq, Repr

/-- What surrounds the block: the model's own fields (log entries 1 to 5 and 8). -/
structure Env where
  /-- What the host does next, oldest first. -/
  host      : List HostAct
  /-- Answers the transactor gives to the next `writeByte` calls. -/
  acks      : List Ack
  /-- Bytes the transactor gives to the next `readByte` calls. -/
  bytes     : List Byte
  /-- Number of the next free answer of Config. -/
  free      : Nat
  /-- How many further external calls return: `none` when every call returns (R167). -/
  hangAfter : Option Nat
  /-- The external calls made, oldest first (R51). -/
  calls     : List Call
  /-- The host's reads: offset and value returned, oldest first. -/
  reads     : List (Nat × Word)
deriving DecidableEq, Repr

/-- The whole state. -/
structure State where
  /-- `D[0..2]` (R10). -/
  d        : Buf
  /-- `RAW` (R11). -/
  raw      : Sample
  /-- `RESULT_FX` (R12). -/
  resultFx : Word
  /-- `RESULT_FP` (R13). -/
  resultFp : Word
  /-- `CRCVAL` (R14). -/
  crcVal   : Byte
  /-- `IR` (R15). -/
  ir       : Word
  /-- `STATUS` (R16). -/
  status   : Status
  /-- `PHASE` (R24). -/
  phase    : Phase
  /-- `UPC`, 0 to 12 (R24). -/
  upc      : Nat
  /-- `HELD` (R25). -/
  held     : Bool
  /-- `T[0..2]` (R26). -/
  t        : Buf
  /-- `K` (R26, R163). -/
  k        : BitVec 7
  /-- `CAUSE_P` (R26). -/
  causeP   : Cause
  /-- What surrounds the block. -/
  env      : Env
deriving DecidableEq, Repr

/-- Why the model stops with a fault. Both are raised only in states no run from reset reaches, so both are safe
(log entry 9). -/
inductive Fault where
  /-- Raised by a meaning when `PHASE` and `UPC` name no micro-step of its command. Safe. -/
  | noMicroStep
  /-- Raised by the block's turn when `BUSY = 1` and `IR` holds no legal command. Safe. -/
  | noCommand
deriving DecidableEq, Repr

/-- Why the model refuses a step. -/
inductive Refusal where
  /-- Raised by exec's arm of an instruction without a meaning; no arm does. Safe. -/
  | notModelled (mnemonic : String)
  /-- Raised by a host access of another width than 4 bytes, misaligned, or outside the window, to which the spec gives no
  meaning (R44, U1). Safe. -/
  | hostAccessUndefined
  /-- Raised by a reset while `BUSY = 1`, to which the spec gives no meaning (R176, U3). Safe. -/
  | resetWhileBusy
deriving DecidableEq, Repr

/-- What one step, or one meaning, answers. -/
abbrev Result := Host.Outcome State Fault Refusal

/-- `STATUS` after reset (R33). -/
def Status.reset : Status :=
  { busy := false, done := false, fail := false, errKind := .none, cause := .none, crcOk := false, rvalid := false,
    rkind := .temperature, sbits := 0, rxcnt := 0, pollcnt := 0 }

/-- The surroundings before anything happened: nothing queued, nothing scripted, every call returns (log entry 8). -/
def Env.reset : Env :=
  { host := [], acks := [], bytes := [], free := 0, hangAfter := none, calls := [], reads := [] }

/-- The machine right after reset (R33). -/
def State.reset : State :=
  { d := ⟨0, 0, 0⟩, raw := 0, resultFx := 0, resultFp := 0, crcVal := 0, ir := 0, status := Status.reset,
    phase := .idle, upc := 0, held := false, t := ⟨0, 0, 0⟩, k := 0, causeP := .none, env := Env.reset }

end Sys2Proof.Machine
end

