-- ==== Sys2Proof/Machine/Flags.lean ====
section
/-! DEFINITION. `STATUS`: its numeric codes (60_exceptions.md R150, R151) and its layout as the host reads it
(10_state.md R16). -/

namespace Sys2Proof.Machine

/-- The codes of `ERRKIND` (R150). -/
def ErrKind.code : ErrKind → BitVec 2
  | .none => 0
  | .busError => 1
  | .dataError => 2
  | .cmdError => 3

/-- The codes of `CAUSE` (R151). -/
def Cause.code : Cause → BitVec 3
  | .none => 0
  | .nackAddrW => 1
  | .nackReg => 2
  | .nackData => 3
  | .nackAddrR => 4
  | .pollExhausted => 5
  | .crcMismatch => 6
  | .badCommand => 7

/-- The codes of `RKIND` (R22). -/
def Quantity.code : Quantity → BitVec 1
  | .temperature => 0
  | .humidity => 1

/-- Bits 31:12 of `STATUS` (R16): 31:23 reserved, `POLLCNT`, `RXCNT`, `SBITS`. -/
def Status.highBits (f : Status) : BitVec 20 := 0#9 ++ f.pollcnt ++ f.rxcnt ++ f.sbits

/-- Bits 11:8 of `STATUS` (R16): 11 reserved, `RKIND`, `RVALID`, `CRCOK`. -/
def Status.middleBits (f : Status) : BitVec 4 :=
  0#1 ++ f.rkind.code ++ BitVec.ofBool f.rvalid ++ BitVec.ofBool f.crcOk

/-- Bits 7:0 of `STATUS` (R16): `CAUSE`, `ERRKIND`, `FAIL`, `DONE`, `BUSY`. -/
def Status.lowBits (f : Status) : BitVec 8 :=
  f.cause.code ++ f.errKind.code ++ BitVec.ofBool f.fail ++ BitVec.ofBool f.done ++ BitVec.ofBool f.busy

/-- `STATUS` as the host reads it, one 32-bit value (R16). -/
def Status.word (f : Status) : Word := f.highBits ++ f.middleBits ++ f.lowBits

end Sys2Proof.Machine
end

