-- ==== Sys2Proof/Machine/Operands.lean ====
section
/-! DEFINITION. Values assembled from operands (30_encoding.md R64): the address byte, the sample value, and the bytes of
the two three-byte buffers. -/

namespace Sys2Proof.Machine

/-- The direction bit of an address byte (20_memory.md R45). -/
inductive Dir where
  | write | read
deriving DecidableEq, Repr

/-- `rw`: 0 for "address+write-bit", 1 for "address+read-bit" (R45). -/
def Dir.bit : Dir → Byte
  | .write => 0
  | .read => 1

/-- `AB(a, rw) = (a << 1) | rw` (R45, R64). -/
def addressByte (a : DevAddr) (dir : Dir) : Byte := (a.setWidth 8 <<< 1) ||| dir.bit

/-- `pack(b0, b1) = (b0 << 8) | (b1 & 0xFC)` (42_conversion.md R111). -/
def packSample (b0 b1 : Byte) : Sample := (b0.setWidth 16 <<< 8) ||| (b1 &&& 0xFC).setWidth 16

/-- `sbits(b1) = b1 & 0x03` (R111). -/
def statusBits (b1 : Byte) : BitVec 2 := (b1 &&& 0x03).setWidth 2

/-- `x[i]`, `i` in 0..2 (00_scope.md R7). No command reads past index 2 (log entry 11). -/
def Buf.get (b : Buf) (i : Nat) : Byte :=
  if i = 0 then b.b0 else if i = 1 then b.b1 else if i = 2 then b.b2 else 0

/-- `x[i] <- v` (R7). -/
def Buf.set (b : Buf) (i : Nat) (v : Byte) : Buf :=
  if i = 0 then { b with b0 := v } else if i = 1 then { b with b1 := v } else if i = 2 then { b with b2 := v } else b

/-- The bytes `x[0], ..., x[n-1]`, in order. -/
def Buf.bytes (b : Buf) (n : Nat) : List Byte := [b.b0, b.b1, b.b2].take n

/-- The first `n` bytes, and 0 in the places from `n` on: what a completed read of `n` bytes leaves in `D`
(40_transaction_primitives.md R81, R82). -/
def Buf.firstBytes (b : Buf) (n : Nat) : Buf :=
  { b0 := if 0 < n then b.b0 else 0, b1 := if 1 < n then b.b1 else 0, b2 := if 2 < n then b.b2 else 0 }

/-- The word the host reads at `DBUF` (20_memory.md R40). -/
def Buf.word (b : Buf) : Word := 0#8 ++ b.b2 ++ b.b1 ++ b.b0

/-- The buffer a host write of `v` to `DBUF` leaves (R42): `v[31:24]` is ignored. -/
def Buf.ofWord (v : Word) : Buf :=
  { b0 := v.extractLsb' 0 8, b1 := v.extractLsb' 8 8, b2 := v.extractLsb' 16 8 }

end Sys2Proof.Machine
end

