-- ==== Sys2Proof/Machine/Ops.lean ====
section
/-! DEFINITION. The shared operations: external calls and their answers (60_exceptions.md R166, R167), acceptance
(10_state.md R29), successful completion (R28), failing completion (60_exceptions.md R156), and the guard that a command
is in one of its phases. -/

namespace Sys2Proof.Machine

/-! ## External calls -/

/-- The call is appended to the history, in order (20_memory.md R51). -/
def State.record (s : State) (c : Call) : State :=
  { s with env := { s.env with calls := s.env.calls ++ [c] } }

/-- Every external call that is still to be made returns: the premise R187 asks of a claim about a command's result. -/
abbrev State.AllCallsReturn (s : State) : Prop := s.env.hangAfter = none

/-- The next external call returns (R167). -/
abbrev State.NextCallReturns (s : State) : Prop := s.env.hangAfter ≠ some 0

/-- One external call less is left before a call hangs. -/
def State.spendCall (s : State) : State :=
  { s with env := { s.env with hangAfter := s.env.hangAfter.map (· - 1) } }

/-- A sequencer step that makes one external call: if the call never returns, no step is taken and everything stays as it
is, `BUSY = 1` among it (R167, D27; log entry 5). -/
def external (s : State) (k : State → Result) : Result :=
  if s.env.hangAfter = some 0 then .next s else k s.spendCall

/-- The answer to `writeByte`, a free input (R80, R167): the next scripted one, else the next free value (log entry 4). -/
def State.ackAnswer (s : State) : Ack := s.env.acks.headD (Config.freeAck s.env.free)

/-- The answer to `writeByte` is used up. -/
def State.dropAck (s : State) : State :=
  { s with env := { s.env with
      acks := s.env.acks.tail, free := if s.env.acks = [] then s.env.free + 1 else s.env.free } }

/-- The answer to `readByte`, a free input (R80, R167): the next scripted byte, else the next free value (log entry 4). -/
def State.byteAnswer (s : State) : Byte := s.env.bytes.headD (Config.freeByte s.env.free)

/-- The answer to `readByte` is used up. -/
def State.dropByte (s : State) : State :=
  { s with env := { s.env with
      bytes := s.env.bytes.tail, free := if s.env.bytes = [] then s.env.free + 1 else s.env.free } }

/-- `start()`: `HELD <- 1` (R80 `S`, 10_state.md R25). -/
def State.callStart (s : State) : State := { s.record .start with held := true }

/-- `stop()`: `HELD <- 0` (R80 `P_ok` and `P_fail`, R25). -/
def State.callStop (s : State) : State := { s.record .stop with held := false }

/-- `writeByte(b)` with its answer recorded. -/
def State.callWrite (s : State) (b : Byte) : State := s.dropAck.record (.writeByte b s.ackAnswer)

/-- `T[i] <- readByte()` (R80 `R(i)`). -/
def State.callRead (s : State) (i : Nat) : State :=
  { s.dropByte.record (.readByte s.byteAnswer) with t := s.t.set i s.byteAnswer }

/-! ## Beginning and end of a command -/

/-- `PHASE` at acceptance (R29). -/
def startPhase : Instr → Phase
  | .rdreg _ _ _ | .rdnr _ _ | .wrreg _ _ _ | .wrcmd _ _ | .getur | .setur _ | .srst => .prim
  | .meast | .meash => .trig
  | .crc8 _ | .pack | .convt | .convh => .pure

/-- Acceptance of the word `w` of command `i` (R29). -/
def State.accept (s : State) (w : Word) (i : Instr) : State :=
  { s with
    ir := w
    status := { s.status with
      busy := true, done := false, fail := false, errKind := .none, cause := .none, pollcnt := 0 }
    k := 0
    upc := 0
    phase := startPhase i }

/-- Successful completion `complete_ok` (R28), after the register writes of the command's rule. -/
def State.completeOk (s : State) : State :=
  { s with
    status := { s.status with busy := false, done := true, fail := false, errKind := .none, cause := .none }
    phase := .idle }

/-- Failing completion `raise E(c)` with `POLLCNT <- polls` (R156): every data output is cleared. -/
def State.raise (s : State) (kind : ErrKind) (cause : Cause) (polls : BitVec 7) : State :=
  { s with
    d := ⟨0, 0, 0⟩
    raw := 0
    resultFx := 0
    resultFp := 0
    crcVal := 0
    status := { busy := false, done := true, fail := true, errKind := kind, cause := cause, crcOk := false,
                rvalid := false, rkind := .temperature, sbits := 0, rxcnt := 0, pollcnt := polls }
    phase := .idle }

/-- `raise BusError(c)` of a command that is no measurement, or of a measurement's trigger: `POLLCNT <- 0` (R126, R156). -/
def State.raiseBus (s : State) (c : Cause) : State := s.raise .busError c 0

/-- Refusal of the illegal word `w` (R154). -/
def State.refuseWord (s : State) (w : Word) : State := { s with ir := w }.raise .cmdError .badCommand 0

/-- A command has a step in phase `p` only if the sequencer is in it (R24, R27; log entry 9). -/
def inPhase (p : Phase) (s : State) (k : Result) : Result :=
  if s.phase = p then k else .fault .noMicroStep

/-- A pure command: one step in phase `PURE`, no external call, always successful (41_integrity_check.md R101,
42_conversion.md R110, R117, R118). -/
def pureCommand (s : State) (writes : State → State) : Result :=
  inPhase .pure s (.next (writes s).completeOk)

end Sys2Proof.Machine
end

