-- ==== Sys2Proof/Machine/Frames.lean ====
section
/-! DEFINITION. Frames: the framed bus transactions of 40_transaction_primitives.md as lists of micro-steps indexed by
`UPC` (R80 to R86, R89), and the sequencer's step in one of them. -/

namespace Sys2Proof.Machine

/-- A micro-step kind of R80. -/
inductive Micro where
  /-- `S` -/
  | start
  /-- `W(b, c)` -/
  | write (b : Byte) (c : Cause)
  /-- `R(i)` -/
  | read (i : Nat)
  /-- `A` -/
  | sendAck
  /-- `N` -/
  | sendNack
  /-- `P_ok` -/
  | stopOk
  /-- `P_fail` -/
  | stopFail
deriving DecidableEq, Repr

/-- The read loop of R86 for `m` bytes from index `i` on: `R(i)`, then `A`, or `N` after the last byte. -/
def readLoop (i : Nat) : Nat → List Micro
  | 0 => []
  | m + 1 => .read i :: (if m = 0 then .sendNack else .sendAck) :: readLoop (i + 1) m

/-- `F_RDREG(a, r, n)` (R81). -/
def frameRdreg (a : DevAddr) (r : Byte) (n : Nat) : List Micro :=
  .start :: .write (addressByte a .write) .nackAddrW :: .write r .nackReg ::
  .start :: .write (addressByte a .read) .nackAddrR :: (readLoop 0 n ++ [Micro.stopOk])

/-- `F_RDNR(a, n)` (R82). -/
def frameRdnr (a : DevAddr) (n : Nat) : List Micro :=
  .start :: .write (addressByte a .read) .nackAddrR :: (readLoop 0 n ++ [Micro.stopOk])

/-- `F_WRREG(a, r, d)` (R83). -/
def frameWrreg (a : DevAddr) (r d : Byte) : List Micro :=
  [.start, .write (addressByte a .write) .nackAddrW, .write r .nackReg, .write d .nackData, .stopOk]

/-- `F_WRCMD(a, r)` (R84). -/
def frameWrcmd (a : DevAddr) (r : Byte) : List Micro :=
  [.start, .write (addressByte a .write) .nackAddrW, .write r .nackReg, .stopOk]

/-- The first address byte of a frame (R89): with the write bit, unless the frame is a read without register pointer. -/
def firstAddress (hasReg : Bool) (dir : Dir) (a : DevAddr) : Micro :=
  if hasReg = true ∨ dir = .write then .write (addressByte a .write) .nackAddrW
  else .write (addressByte a .read) .nackAddrR

/-- The part of a frame after its register pointer, less the `stop()` (R89). -/
def transferPart (hasReg : Bool) (dir : Dir) (a : DevAddr) (d : Byte) (n : Nat) : List Micro :=
  match dir with
  | .write => if n = 1 then [.write d .nackData] else []
  | .read =>
    if hasReg then .start :: .write (addressByte a .read) .nackAddrR :: readLoop 0 n else readLoop 0 n

/-- The one parameterised primitive `F(has_reg, dir, r, d, n)` of R89. -/
def genericFrame (hasReg : Bool) (dir : Dir) (a : DevAddr) (r d : Byte) (n : Nat) : List Micro :=
  .start :: firstAddress hasReg dir a ::
    ((if hasReg then [Micro.write r .nackReg] else []) ++ (transferPart hasReg dir a d n ++ [Micro.stopOk]))

/-- The abort step `ABORT` of every frame (R24, R80). -/
def abortUpc : Nat := 12

/-- The micro-step a frame has at `UPC`. -/
def microAt (frame : List Micro) (upc : Nat) : Option Micro :=
  if upc = abortUpc then some .stopFail else frame[upc]?

/-- What a micro-step leads to. -/
inductive FrameEnd where
  /-- The frame goes on. -/
  | running
  /-- `frame_ok` -/
  | ok
  /-- `frame_fail(c)` -/
  | failed (c : Cause)
deriving DecidableEq, Repr

/-- `UPC <- UPC + 1` (R24). -/
def State.advance (s : State) : State := { s with upc := s.upc + 1 }

/-- A `W(b, c)` step after its call: on `ack` the next micro-step, on `nack` `CAUSE_P <- c` and `UPC <- ABORT` (R80). -/
def State.afterWrite (s : State) (answer : Ack) (c : Cause) : State :=
  match answer with
  | .ack => s.advance
  | .nack => { s with causeP := c, upc := abortUpc }

/-- The state a micro-step leaves (R80). `UPC` is left alone where the frame ends (log entry 10). -/
def microState (m : Micro) (s : State) : State :=
  match m with
  | .start => s.callStart.advance
  | .write b c => (s.callWrite b).afterWrite s.ackAnswer c
  | .read i => (s.callRead i).advance
  | .sendAck => (s.record .sendAck).advance
  | .sendNack => (s.record .sendNack).advance
  | .stopOk => s.callStop
  | .stopFail => s.callStop

/-- Whether and how a micro-step ends its frame (R80). -/
def microEnd (m : Micro) (s : State) : FrameEnd :=
  match m with
  | .stopOk => .ok
  | .stopFail => .failed s.causeP
  | .start | .write _ _ | .read _ | .sendAck | .sendNack => .running

/-- One sequencer step in a frame. In the step of its `stop()`, the enclosing command's rule for `frame_ok` or
`frame_fail(c)` is applied (R80). -/
def frameStep (frame : List Micro) (s : State) (onOk : State → State) (onFail : State → Cause → State) : Result :=
  match microAt frame s.upc with
  | none => .fault .noMicroStep
  | some m => external s fun s =>
      match microEnd m s with
      | .running => .next (microState m s)
      | .ok => .next (onOk (microState m s))
      | .failed c => .next (onFail (microState m s) c)

/-- A command that is one frame, run in phase `PRIM` (R81 to R84, 44_device_control.md R140 to R142). -/
def primCommand (frame : List Micro) (s : State) (writes : State → State) : Result :=
  inPhase .prim s (frameStep frame s (fun s => (writes s).completeOk) State.raiseBus)

/-- The register writes of a completed read of `n` bytes (R81, R82). -/
def State.storeRead (s : State) (n : Nat) : State :=
  { s with d := s.t.firstBytes n, status := { s.status with rxcnt := BitVec.ofNat 2 n } }

end Sys2Proof.Machine
end

