-- ==== Sys2Proof/Machine/DeviceControl.lean ====
section
/-! DEFINITION. The device control operations GETUR, SETUR, SRST (44_device_control.md): one sequencer step of each. -/

namespace Sys2Proof.Machine

/-- GETUR (R140). -/
def execGetur (s : State) : Result :=
  primCommand (frameRdreg Config.devAddr Config.cmdRdUser 1) s (fun s => s.storeRead 1)

/-- SETUR `d` (R141). -/
def execSetur (d : Byte) (s : State) : Result :=
  primCommand (frameWrreg Config.devAddr Config.cmdWrUser d) s id

/-- SRST (R142): it resets the sensor, not the block (70_reset_and_hazards.md R177). -/
def execSrst (s : State) : Result :=
  primCommand (frameWrcmd Config.devAddr Config.cmdSoftReset) s id

end Sys2Proof.Machine
end

