-- ==== Sys2Proof/Machine/Conversion.lean ====
section
/-! DEFINITION. Packing and conversion (42_conversion.md): the two calibration formulas as exact integers (R112 to R115),
their binary32 rounding (R116), and the commands PACK, CONVT, CONVH. -/

namespace Sys2Proof.Machine

/-- `Tfx(tmp)`, in units of 1/6553600 degree Celsius (R113). -/
def tfx (tmp : Sample) : Int := 17572 * (tmp.toNat : Int) - 307036160

/-- `Hfx(tmp)`, in units of 1/65536 percent relative humidity (R114). -/
def hfx (tmp : Sample) : Int := 125 * (tmp.toNat : Int) - 393216

/-- `conv` of 43_measurement.md R125: the formula of a quantity. -/
def convFx : Quantity → Sample → Int
  | .temperature => tfx
  | .humidity => hfx

/-- Units of the fixed-point result per degree Celsius or per percent (R113, R114). -/
def unitsPer : Quantity → Nat
  | .temperature => 6553600
  | .humidity => 65536

/-- `num / den` rounded to the nearest integer, ties to the even one (R116). -/
def roundHalfEven (num den : Nat) : Nat :=
  if 2 * (num % den) < den then num / den
  else if den < 2 * (num % den) then num / den + 1
  else num / den + (num / den) % 2

/-- The integer `e` with `2^e <= m/d < 2^(e+1)`, for `m` and `d` not 0 (R116): the position of the leading bit of `m/d`
scaled up by a power of two above `d`. -/
def binaryExponent (m d : Nat) : Int :=
  (Nat.log2 (m * 2 ^ (Nat.log2 d + 1) / d) : Int) - ((Nat.log2 d + 1 : Nat) : Int)

/-- `f` of R116 before its carry: `(m/d) / 2^e * 2^23` rounded to nearest, ties to even. -/
def significand (m d : Nat) : Nat :=
  roundHalfEven (m * 2 ^ (23 - binaryExponent m d).toNat) (d * 2 ^ (binaryExponent m d - 23).toNat)

/-- The binary32 bit pattern with sign `neg`, exponent `e` and significand `f`, `2^23 <= f < 2^24` (R116, last line). -/
def binary32Bits (neg : Bool) (e : Int) (f : Nat) : Word :=
  BitVec.ofBool neg ++ BitVec.ofNat 8 (e + 127).toNat ++ BitVec.ofNat 23 (f - 2 ^ 23)

/-- `fp32(n/d)` (R116), for `n` not 0: no conversion has the argument 0 (log entry 12). -/
def fp32 (n : Int) (d : Nat) : Word :=
  if significand n.natAbs d = 2 ^ 24
  then binary32Bits (decide (n < 0)) (binaryExponent n.natAbs d + 1) (2 ^ 23)
  else binary32Bits (decide (n < 0)) (binaryExponent n.natAbs d) (significand n.natAbs d)

/-- `RESULT_FX` of a sample: the signed value in 32 bits (R113 to R115, R117, R118). -/
def resultFxOf (q : Quantity) (tmp : Sample) : Word := BitVec.ofInt 32 (convFx q tmp)

/-- `RESULT_FP` of a sample (R116 to R118). -/
def resultFpOf (q : Quantity) (tmp : Sample) : Word := fp32 (convFx q tmp) (unitsPer q)

/-- The result writes of a conversion of `tmp`: `RESULT_FX`, `RESULT_FP`, `RKIND`, `RVALID <- 1` (R117, R118). -/
def State.storeReading (s : State) (q : Quantity) (tmp : Sample) : State :=
  { s with
    resultFx := resultFxOf q tmp
    resultFp := resultFpOf q tmp
    status := { s.status with rvalid := true, rkind := q } }

/-- The writes of packing two sample bytes: `RAW`, `SBITS` (R110). -/
def State.storeSample (s : State) (b0 b1 : Byte) : State :=
  { s with raw := packSample b0 b1, status := { s.status with sbits := statusBits b1 } }

/-- PACK (R110). -/
def execPack (s : State) : Result := pureCommand s fun s => s.storeSample s.d.b0 s.d.b1

/-- CONVT (R117). -/
def execConvt (s : State) : Result := pureCommand s fun s => s.storeReading .temperature s.raw

/-- CONVH (R118). -/
def execConvh (s : State) : Result := pureCommand s fun s => s.storeReading .humidity s.raw

end Sys2Proof.Machine
end

