-- ==== Sys2Proof/Machine/Integrity.lean ====
section
/-! DEFINITION. The integrity check (41_integrity_check.md): the function `crc8` (R100) and the command CRC8 (R101). -/

namespace Sys2Proof.Machine

/-- One round of R100: if the high bit is set, shift left and XOR the polynomial, else shift left. -/
def crcRound (acc : Byte) : Byte :=
  if acc.msb then ((acc.setWidth 9 <<< 1) ^^^ Config.crcPoly).setWidth 8 else acc <<< 1

/-- `n` rounds. -/
def crcRounds : Nat → Byte → Byte
  | 0, acc => acc
  | n + 1, acc => crcRounds n (crcRound acc)

/-- One input byte: XOR it into the accumulator, then eight rounds (R100). -/
def crcByte (acc b : Byte) : Byte := crcRounds 8 (acc ^^^ b)

/-- `crc8(B)` (R100). -/
def crc8 (bytes : List Byte) : Byte := bytes.foldl crcByte Config.crcSeed

/-- CRC8 `n` (R101): `CRCVAL <- c; CRCOK <- (c = D[n])`. -/
def execCrc8 (n : Byte) (s : State) : Result :=
  pureCommand s fun s =>
    { s with
      crcVal := crc8 (s.d.bytes n.toNat)
      status := { s.status with crcOk := crc8 (s.d.bytes n.toNat) == s.d.get n.toNat } }

end Sys2Proof.Machine
end

