-- ==== Sys2Proof/Machine/Measurement.lean ====
section
/-! DEFINITION. The measurement protocol (43_measurement.md): the shared algorithm R125 to R129 and the commands MEAST
(R130) and MEASH (R131), one sequencer step of each. -/

namespace Sys2Proof.Machine

/-- Phase `DELAY` after its call (R127): `K <- K + 1; UPC <- 0`, on to `POLL`. -/
def State.beginPoll (s : State) : State := { s.record .delay with k := s.k + 1, upc := 0, phase := .poll }

/-- `frame_ok` of the trigger (R126). -/
def State.triggered (s : State) : State := { s with k := 0, phase := .delay }

/-- `frame_fail` of a poll (R128): another attempt, or exhaustion after the 85th. -/
def State.pollFailed (s : State) : State :=
  if s.k < Config.pollMax then { s with phase := .delay }
  else s.raise .dataError .pollExhausted Config.pollMax

/-- The register writes of a successful measurement (R125, R129). -/
def State.storeMeasurement (s : State) (q : Quantity) : State :=
  let s := (s.storeRead Config.sampleLen).storeSample s.t.b0 s.t.b1
  let s := { s with crcVal := crc8 (s.t.bytes 2), status := { s.status with crcOk := true, pollcnt := s.k } }
  s.storeReading q s.raw

/-- Phase `FIN` (R129): validate, then convert. -/
def State.finish (s : State) (q : Quantity) : State :=
  if crc8 (s.t.bytes 2) = s.t.b2 then (s.storeMeasurement q).completeOk
  else s.raise .dataError .crcMismatch s.k

/-- One sequencer step of a measurement of `q` triggered by the command byte `cmd` (R125). -/
def measurementStep (cmd : Byte) (q : Quantity) (s : State) : Result :=
  match s.phase with
  | .trig => frameStep (frameWrcmd Config.devAddr cmd) s State.triggered State.raiseBus
  | .delay => external s fun s => .next s.beginPoll
  | .poll => frameStep (frameRdnr Config.devAddr Config.sampleLen) s (fun s => { s with phase := .fin })
      (fun s _ => s.pollFailed)
  | .fin => .next (s.finish q)
  | .idle | .prim | .pure => .fault .noMicroStep

/-- MEAST (R130). -/
def execMeast (s : State) : Result := measurementStep Config.cmdTrigT .temperature s

/-- MEASH (R131). -/
def execMeash (s : State) : Result := measurementStep Config.cmdTrigRh .humidity s

end Sys2Proof.Machine
end

