-- ==== Sys2Proof/Machine/Transaction.lean ====
section
/-! DEFINITION. The transaction primitives RDREG, RDNR, WRREG, WRCMD (40_transaction_primitives.md): one sequencer step of
each. -/

namespace Sys2Proof.Machine

/-- RDREG `a, r, n` (R81). -/
def execRdreg (a : DevAddr) (r n : Byte) (s : State) : Result :=
  primCommand (frameRdreg a r n.toNat) s (fun s => s.storeRead n.toNat)

/-- RDNR `a, n` (R82). -/
def execRdnr (a : DevAddr) (n : Byte) (s : State) : Result :=
  primCommand (frameRdnr a n.toNat) s (fun s => s.storeRead n.toNat)

/-- WRREG `a, r, d` (R83). -/
def execWrreg (a : DevAddr) (r d : Byte) (s : State) : Result :=
  primCommand (frameWrreg a r d) s id

/-- WRCMD `a, r` (R84). -/
def execWrcmd (a : DevAddr) (r : Byte) (s : State) : Result :=
  primCommand (frameWrcmd a r) s id

end Sys2Proof.Machine
end

