-- ==== Sys2Proof/Machine/Dispatch.lean ====
section
/-! DEFINITION. One sequencer step of the command `i` (10_state.md R27): one arm per command. -/

namespace Sys2Proof.Machine

def exec (i : Instr) (s : State) : Host.Outcome State Fault Refusal :=
  match i with
  | .rdreg a r n => Sys2Proof.Machine.execRdreg a r n s
  | .rdnr a n => Sys2Proof.Machine.execRdnr a n s
  | .wrreg a r d => Sys2Proof.Machine.execWrreg a r d s
  | .wrcmd a r => Sys2Proof.Machine.execWrcmd a r s
  | .crc8 n => Sys2Proof.Machine.execCrc8 n s
  | .pack => Sys2Proof.Machine.execPack s
  | .convt => Sys2Proof.Machine.execConvt s
  | .convh => Sys2Proof.Machine.execConvh s
  | .meast => Sys2Proof.Machine.execMeast s
  | .meash => Sys2Proof.Machine.execMeash s
  | .getur => Sys2Proof.Machine.execGetur s
  | .setur d => Sys2Proof.Machine.execSetur d s
  | .srst => Sys2Proof.Machine.execSrst s

end Sys2Proof.Machine
end

