-- ==== Sys2Proof/Machine/Window.lean ====
section
/-! DEFINITION. The host's side: the window of eight registers (20_memory.md R40 to R44), the write to `CMD` (10_state.md
R29, 60_exceptions.md R154), and reset (70_reset_and_hazards.md R175, R176). -/

namespace Sys2Proof.Machine

/-- The offsets and widths of R44 that have a meaning. -/
def accessOk (off width : Nat) : Bool := width == 4 && off % 4 == 0 && decide (off ≤ 0x1C)

/-- The value of the register at offset `off` of the window (R40); offset 0x1C reads 0. -/
def windowReg (s : State) (off : Nat) : Word :=
  if off = 0x00 then s.ir
  else if off = 0x04 then s.status.word
  else if off = 0x08 then s.d.word
  else if off = 0x0C then s.raw.setWidth 32
  else if off = 0x10 then s.resultFx
  else if off = 0x14 then s.resultFp
  else if off = 0x18 then s.crcVal.setWidth 32
  else 0

/-- A host read (R41): no state of the block changes; the value goes to the host's history. -/
def hostRead (s : State) (off width : Nat) : Result :=
  if accessOk off width
  then .next { s with env := { s.env with reads := s.env.reads ++ [(off, windowReg s off)] } }
  else .refused .hostAccessUndefined

/-- A write of the word `w` to `CMD` while `BUSY = 0`: acceptance (R29) or refusal (R154). -/
def State.writeCommand (s : State) (w : Word) : State :=
  match decode w with
  | .ok i => s.accept w i
  | .error _ => s.refuseWord w

/-- A host write while `BUSY = 0` (R42): `CMD`, `DBUF` and `RAW` take it, every other offset ignores it. -/
def State.writeIdle (s : State) (off : Nat) (v : Word) : State :=
  if off = 0x00 then s.writeCommand v
  else if off = 0x08 then { s with d := Buf.ofWord v }
  else if off = 0x0C then { s with raw := v.setWidth 16 }
  else s

/-- A host write: ignored while `BUSY = 1` (R43). -/
def hostWrite (s : State) (off width : Nat) (v : Word) : Result :=
  if accessOk off width
  then .next (if s.status.busy then s else s.writeIdle off v)
  else .refused .hostAccessUndefined

/-- Reset (R175): every piece of the block's state takes its reset value, no external call is made, and what surrounds the
block stays (log entry 16). While `BUSY = 1` it has no meaning (R176). -/
def hostReset (s : State) : Result :=
  if s.status.busy then .refused .resetWhileBusy else .next { State.reset with env := s.env }

end Sys2Proof.Machine
end

