-- ==== Sys2Proof/Machine/Turn.lean ====
section
/-! DEFINITION. Who moves: the block's turn (10_state.md R27) and the host's (00_scope.md R8), and how a command word is
placed so that the next step runs it. -/

namespace Sys2Proof.Machine

/-- The block's turn: while `BUSY = 1` the one enabled sequencer step of the command in `IR` (R27), else nothing moves
(70_reset_and_hazards.md R187; log entry 2). -/
def blockTurn (s : State) : Result :=
  if s.status.busy then
    match decode s.ir with
    | .ok i => exec i s
    | .error _ => .fault .noCommand
  else .next s

/-- The state with the host's queue replaced. -/
def State.withHost (s : State) (h : List HostAct) : State := { s with env := { s.env with host := h } }

/-- One step of the whole: the oldest entry of the host's queue says who moves (log entries 1 and 3); with an empty queue
the block does. -/
def systemTurn (s : State) : Result :=
  match s.env.host with
  | [] => blockTurn s
  | .pause :: h => blockTurn (s.withHost h)
  | .awaitDone :: h => if s.status.done then .next (s.withHost h) else blockTurn s
  | .read off width :: h => hostRead (s.withHost h) off width
  | .write off width v :: h => hostWrite (s.withHost h) off width v
  | .reset :: h => hostReset (s.withHost h)

/-- `s` with the block's turn next. -/
def State.yielding (s : State) : State := if s.env.host = [] then s else s.withHost (.pause :: s.env.host)

/-- `s` with the word `w` where the next step takes its command from (log entry 14): a legal word is accepted (R29), so the
next step is the command's first; an illegal word is the host's next write to `CMD`, so the next step refuses it (R154). -/
def State.loadWord (s : State) (w : Word) : State :=
  match decode w with
  | .ok i => (s.accept w i).yielding
  | .error _ => { s with status := { s.status with busy := false } }.withHost (.write 0x00 4 w :: s.env.host)

end Sys2Proof.Machine
end

