-- ==== Sys2Proof/Machine/Step.lean ====
section
/-! DEFINITION. The step of the machine, and the placing of a command word. -/

namespace Sys2Proof.Machine

/-- One step. -/
def step (s : State) : Host.Outcome State Fault Refusal := systemTurn s

/-- `s` with the command whose table bits are `w` placed so that the next step runs it. -/
def State.withFetchWord (s : State) (nbits w : Nat) : State := s.loadWord (wordOfTableBits nbits w)

end Sys2Proof.Machine
end

