-- ==== Sys2Proof/Safety.lean ====
section
/-! DEFINITION. What claims about the block are stated in: the invariant of its reachable states (10_state.md R34, and the
position of the sequencer that makes it inductive), reachable states, and the value of a binary32 pattern. -/

namespace Sys2Proof.Machine

/-- The frame a command starts with; a pure command has none. -/
def firstFrame : Instr → List Micro
  | .rdreg a r n => frameRdreg a r n.toNat
  | .rdnr a n => frameRdnr a n.toNat
  | .wrreg a r d => frameWrreg a r d
  | .wrcmd a r => frameWrcmd a r
  | .meast => frameWrcmd Config.devAddr Config.cmdTrigT
  | .meash => frameWrcmd Config.devAddr Config.cmdTrigRh
  | .getur => frameRdreg Config.devAddr Config.cmdRdUser 1
  | .setur d => frameWrreg Config.devAddr Config.cmdWrUser d
  | .srst => frameWrcmd Config.devAddr Config.cmdSoftReset
  | .crc8 _ | .pack | .convt | .convh => []

/-- The sequencer stands at a micro-step of the frame: at its abort step with the bus held and a cause recorded, or at a
step of the table, with the bus held exactly after the first one (R24, R25, R80). -/
def InFrame (frame : List Micro) (s : State) : Prop :=
  (s.upc = abortUpc ∧ s.held = true ∧ s.causeP ≠ .none) ∨
  (s.upc < frame.length ∧ s.upc < abortUpc ∧ (s.held = true ↔ s.upc ≠ 0))

/-- Where the sequencer can stand while it runs the command `i`. -/
def Position (i : Instr) (s : State) : Prop :=
  match s.phase with
  | .idle => False
  | .prim => startPhase i = .prim ∧ InFrame (firstFrame i) s
  | .pure => startPhase i = .pure ∧ s.held = false
  | .trig => startPhase i = .trig ∧ InFrame (firstFrame i) s
  | .delay => startPhase i = .trig ∧ s.held = false ∧ s.k < Config.pollMax
  | .poll => startPhase i = .trig ∧ InFrame (frameRdnr Config.devAddr Config.sampleLen) s ∧ 0 < s.k
  | .fin => startPhase i = .trig ∧ s.held = false ∧ 0 < s.k

/-- The invariant of the reachable states. -/
structure State.Inv (s : State) : Prop where
  /-- An idle block is in no phase and the bus is stopped (R34 a, c). -/
  idle      : s.status.busy = false → s.phase = .idle ∧ s.held = false
  /-- A busy block runs the legal command in `IR` and stands at one of its micro-steps (R24, R27). -/
  running   : s.status.busy = true → ∃ i, decode s.ir = .ok i ∧ Position i s
  /-- While a command runs the outcome fields are clear (R29, R34 b, 20_memory.md R43). -/
  cleared   : s.status.busy = true → s.status.done = false ∧ s.status.fail = false ∧ s.status.pollcnt = 0
  /-- R34 d, without a failure. -/
  success   : s.status.fail = false → s.status.errKind = .none ∧ s.status.cause = .none
  /-- R34 d, with a failure. -/
  failure   : s.status.fail = true → s.status.errKind ≠ .none ∧ s.status.cause ≠ .none
  /-- R34 e. -/
  pollcnt   : s.status.pollcnt ≤ Config.pollMax
  /-- R34 f. -/
  attempts  : s.k ≤ Config.pollMax
  /-- R24: `UPC` never exceeds 12. -/
  upc       : s.upc ≤ abortUpc
  /-- R34 g. -/
  noReading : s.status.rvalid = false →
                s.resultFx = 0 ∧ s.resultFp = 0 ∧ s.status.rkind = .temperature

/-- A state reached from the block's reset state, whatever surrounds the block. -/
inductive Reachable : State → Prop where
  | reset (e : Env) : Reachable { State.reset with env := e }
  | step {s s' : State} : Reachable s → Machine.step s = .next s' → Reachable s'

/-- The state in which the block takes its turn, when the next step is the block's. -/
def blockTurnState (s : State) : Option State :=
  match s.env.host with
  | [] => some s
  | .pause :: h => some (s.withHost h)
  | .awaitDone :: _ => if s.status.done then none else some s
  | .read _ _ :: _ | .write _ _ _ :: _ | .reset :: _ => none

/-- The state with `STATUS` replaced. -/
def State.withStatus (s : State) (f : Status) : State := { s with status := f }

/-- A step of the command `i` from `s` keeps the field of `STATUS`, whatever it holds, or writes it the same value
whatever `STATUS` holds. -/
def KeptOrIndependent {α : Type} (i : Instr) (s : State) (field : Status → α) : Prop :=
  (∀ f t, exec i (s.withStatus f) = .next t → field t.status = field f) ∨
  ∃ v, ∀ f t, exec i (s.withStatus f) = .next t → field t.status = v

/-- Whether the bus is held after the calls, when it was `held` before them (R25). -/
def heldAfter (held : Bool) : List Call → Bool
  | [] => held
  | .start :: l => heldAfter true l
  | .stop :: l => heldAfter false l
  | .writeByte _ _ :: l | .readByte _ :: l | .sendAck :: l | .sendNack :: l | .delay :: l => heldAfter held l

/-- The number a binary32 pattern of a normal number stands for (42_conversion.md R116, G6). -/
def binary32Value (w : Word) : ℚ :=
  (if w.msb then -1 else 1) * (1 + ((w.extractLsb' 0 23).toNat : ℚ) / 2 ^ 23)
    * 2 ^ (((w.extractLsb' 23 8).toNat : ℤ) - 127)

/-- The physical value of a sample (R112): `T(tmp)` in degrees Celsius or `H(tmp)` in percent. -/
def reading : Quantity → Sample → ℚ
  | .temperature, tmp => -4685 / 100 + 17572 / 100 * (tmp.toNat : ℚ) / 65536
  | .humidity, tmp => -6 + 125 * (tmp.toNat : ℚ) / 65536

end Sys2Proof.Machine
end

