-- ==== Sys2Proof/Certificates/Slice0/Obligations.lean ====
section
/-! DEFINITION. The statements for the provers. Each docstring names the rule of spec/ it formalises. -/

open Sys2Proof Sys2Proof.Machine

/-! ## Reset and the host's side -/

/-- 10_state.md R33: every piece of state after reset, and that no legal command is in `IR`. That "the sequencer has no
step" is written as a turn of the block that answers the same state is the model's choice (log entry 2). -/
def Obligations.ResetLeavesSpecValues : Prop :=
  ∀ e : Env,
    let s : State := { State.reset with env := e }
    s.d = ⟨0, 0, 0⟩ ∧ s.raw = 0 ∧ s.resultFx = 0 ∧ s.resultFp = 0 ∧ s.crcVal = 0 ∧ s.ir = 0 ∧ s.status.word = 0 ∧
    s.status.busy = false ∧ s.status.done = false ∧ s.status.fail = false ∧ s.status.errKind.code = 0 ∧
    s.status.cause.code = 0 ∧ s.status.crcOk = false ∧ s.status.rvalid = false ∧ s.status.rkind.code = 0 ∧
    s.status.sbits = 0 ∧ s.status.rxcnt = 0 ∧ s.status.pollcnt = 0 ∧ s.phase = .idle ∧ s.upc = 0 ∧ s.held = false ∧
    s.t = ⟨0, 0, 0⟩ ∧ s.k = 0 ∧ s.causeP.code = 0 ∧ (∀ i, decode s.ir ≠ .ok i) ∧ blockTurn s = .next s

/-- 70_reset_and_hazards.md R175 and R176: a reset delivered while `BUSY = 0` gives every register its reset value and makes
no external call; while `BUSY = 1` it is refused. That the surroundings stay is the model's choice (log entry 16). -/
def Obligations.ResetEventOnlyWhileIdle : Prop :=
  ∀ (s : State) (h : List HostAct), s.env.host = .reset :: h →
    (s.status.busy = false → step s = .next { State.reset with env := { s.env with host := h } }) ∧
    (s.status.busy = true → step s = .refused .resetWhileBusy)

/-- 20_memory.md R41 with the table of R40: a read of each offset of the window, whatever `BUSY` is, returns the register's
value and changes no state of the block. That the value goes to `env.reads` is the model's way of returning it. -/
def Obligations.HostReadReturnsRegister : Prop :=
  ∀ (s : State) (h : List HostAct) (off : Nat) (v : Word),
    (off, v) ∈ [(0x00, s.ir), (0x04, s.status.word), (0x08, 0#8 ++ s.d.b2 ++ s.d.b1 ++ s.d.b0),
                (0x0C, s.raw.setWidth 32), (0x10, s.resultFx), (0x14, s.resultFp), (0x18, s.crcVal.setWidth 32),
                (0x1C, (0 : Word))] →
    s.env.host = .read off 4 :: h →
    step s = .next { s with env := { s.env with host := h, reads := s.env.reads ++ [(off, v)] } }

/-- 20_memory.md R42: a write while `BUSY = 0` to `CMD` is the acceptance or refusal of a command (their effects are
`CommandAcceptance` and `RefusalOfIllegalWord`), to `DBUF` and `RAW` writes those registers alone, and to any other
offset of the window is ignored. -/
def Obligations.HostWriteWhileIdle : Prop :=
  ∀ (s : State) (h : List HostAct) (off : Nat) (v : Word), s.status.busy = false → s.env.host = .write off 4 v :: h →
    let s' : State := { s with env := { s.env with host := h } }
    (off = 0x00 → ∀ i, decode v = .ok i → step s = .next (s'.accept v i)) ∧
    (off = 0x00 → ∀ e, decode v = .error e → step s = .next (s'.refuseWord v)) ∧
    (off = 0x08 → step s = .next
      { s' with d := ⟨v.extractLsb' 0 8, v.extractLsb' 8 8, v.extractLsb' 16 8⟩ }) ∧
    (off = 0x0C → step s = .next { s' with raw := v.extractLsb' 0 16 }) ∧
    (off ∈ [0x04, 0x10, 0x14, 0x18, 0x1C] → step s = .next s')

/-- 20_memory.md R43: while `BUSY = 1` every write of the window is ignored, and a read of `STATUS` has `BUSY = 1`,
`DONE = 0`, `FAIL = 0`, `ERRKIND = 0`, `CAUSE = 0` and `POLLCNT = 0`. -/
def Obligations.HostAccessWhileBusy : Prop :=
  ∀ s : State, s.Inv → s.status.busy = true →
    (∀ h off v, off % 4 = 0 → off ≤ 0x1C → s.env.host = .write off 4 v :: h →
      step s = .next { s with env := { s.env with host := h } }) ∧
    s.status.word.extractLsb' 0 8 = 1 ∧ s.status.word.extractLsb' 16 7 = 0

/-- 20_memory.md R44: exactly the accesses of 4 bytes at a multiple of 4 inside 0x00 to 0x1C have a meaning; any other is
refused, whatever `BUSY` is. -/
def Obligations.MalformedHostAccessRefused : Prop :=
  ∀ (s : State) (h : List HostAct) (off width : Nat) (v : Word),
    (s.env.host = .read off width :: h ∨ s.env.host = .write off width v :: h) →
    ((width = 4 ∧ off % 4 = 0 ∧ off ≤ 0x1C) → ∃ t, step s = .next t) ∧
    (¬ (width = 4 ∧ off % 4 = 0 ∧ off ≤ 0x1C) → step s = .refused .hostAccessUndefined)

/-- 10_state.md R29: a write of `w` to `CMD` while `BUSY = 0` accepts the command `w` decodes to, and no register but those
the rule lists changes; if `w` does not decode, the refusal of R154 applies instead (its effect is
`RefusalOfIllegalWord`). -/
def Obligations.CommandAcceptance : Prop :=
  ∀ (s : State) (h : List HostAct) (w : Word), s.status.busy = false → s.env.host = .write 0x00 4 w :: h →
    (∀ i, decode w = .ok i → step s = .next
      { s with
        ir := w
        status := { s.status with
          busy := true, done := false, fail := false, errKind := .none, cause := .none, pollcnt := 0 }
        k := 0
        upc := 0
        phase := match i with
          | .rdreg _ _ _ | .rdnr _ _ | .wrreg _ _ _ | .wrcmd _ _ | .getur | .setur _ | .srst => .prim
          | .meast | .meash => .trig
          | .crc8 _ | .pack | .convt | .convh => .pure
        env := { s.env with host := h } }) ∧
    (∀ e, decode w = .error e → step s = .next ({ s with env := { s.env with host := h } } |>.refuseWord w))

/-- 60_exceptions.md R154 with R156: what the refusal of an illegal word leaves, with no external call; it is complete when
the write returns, so the next read of `STATUS` returns `0x000000FE` (95_test_vectors.md V100). That "the sequencer takes
no step" is written as a turn of the block that answers the same state is the model's choice (log entry 2). -/
def Obligations.RefusalOfIllegalWord : Prop :=
  ∀ (s : State) (h : List HostAct) (w : Word), s.status.busy = false → (∀ i, decode w ≠ .ok i) →
    s.env.host = .write 0x00 4 w :: h →
    ∃ t, step s = .next t ∧ t.ir = w ∧ t.status.word = 0x000000FE ∧ t.phase = .idle ∧ t.held = s.held ∧
      t.d = ⟨0, 0, 0⟩ ∧ t.raw = 0 ∧ t.crcVal = 0 ∧ t.resultFx = 0 ∧ t.resultFp = 0 ∧
      t.env = { s.env with host := h } ∧ blockTurn t = .next t

/-- 10_state.md R16: each field of `STATUS` stands at its bits of the word the host reads, and the reserved bits are 0. -/
def Obligations.StatusWordLayout : Prop :=
  ∀ f : Status,
    f.word.getLsbD 0 = f.busy ∧ f.word.getLsbD 1 = f.done ∧ f.word.getLsbD 2 = f.fail ∧
    f.word.extractLsb' 3 2 = f.errKind.code ∧ f.word.extractLsb' 5 3 = f.cause.code ∧
    f.word.getLsbD 8 = f.crcOk ∧ f.word.getLsbD 9 = f.rvalid ∧ f.word.extractLsb' 10 1 = f.rkind.code ∧
    f.word.getLsbD 11 = false ∧ f.word.extractLsb' 12 2 = f.sbits ∧ f.word.extractLsb' 14 2 = f.rxcnt ∧
    f.word.extractLsb' 16 7 = f.pollcnt ∧ f.word.extractLsb' 23 9 = 0

/-! ## Decoding, encoding, and the step -/

/-- 10_state.md R27: when the block has the turn and is busy with a word that decodes to `i`, the step is `exec i` on the
state whose turn it is (the host's queue less a `pause`). -/
def Obligations.StepRunsDecodedCommand : Prop :=
  ∀ (s t : State) (i : Instr), blockTurnState s = some t → s.status.busy = true → decode s.ir = .ok i →
    step s = exec i t

/-- The placing of a word is the placing of its command: the very next step runs it, from the state acceptance leaves. The
placing itself is the model's (log entry 14). -/
def Obligations.PlacedWordRunsNext : Prop :=
  ∀ (s : State) (w : Nat) (i : Instr), decodeTableWord 32 w = some i →
    step (s.withFetchWord 32 w) = exec i (s.accept (wordOfTableBits 32 w) i)

/-- Words written out from 30_encoding.md R60 to R63 (95_test_vectors.md V83, V34, V38, V1, V3, V116, V63) decode to their
commands with their operands. -/
def Obligations.WrittenOutWordsDecode : Prop :=
  decode 0x0140E701 = .ok (.rdreg 0x40 0xE7 1) ∧ decode 0x02400003 = .ok (.rdnr 0x40 3) ∧
  decode 0x0340E683 = .ok (.wrreg 0x40 0xE6 0x83) ∧ decode 0x10000002 = .ok (.crc8 2) ∧
  decode 0x12000000 = .ok .convt ∧ decode 0x21000000 = .ok .meash ∧ decode 0x31000083 = .ok (.setur 0x83)

/-- 30_encoding.md R62, R63 and R67: a word that has the shape of a row and meets the row's condition decodes to the row's
command with the operands taken from the word's fields, and every other word is illegal. -/
def Obligations.DecodeFollowsOpcodeMap : Prop :=
  ∀ w : Word,
    let a := w.extractLsb' 16 7
    let r := w.extractLsb' 8 8
    let m := w.extractLsb' 0 8
    (w &&& 0xFF8000FC = 0x01000000 ∧ m ≠ 0 → decode w = .ok (.rdreg a r m)) ∧
    (w &&& 0xFF80FFFC = 0x02000000 ∧ m ≠ 0 → decode w = .ok (.rdnr a m)) ∧
    (w &&& 0xFF800000 = 0x03000000 → decode w = .ok (.wrreg a r m)) ∧
    (w &&& 0xFF8000FF = 0x04000000 → decode w = .ok (.wrcmd a r)) ∧
    (w &&& 0xFFFFFFFC = 0x10000000 ∧ m ≠ 3 → decode w = .ok (.crc8 m)) ∧
    (w = 0x11000000 → decode w = .ok .pack) ∧ (w = 0x12000000 → decode w = .ok .convt) ∧
    (w = 0x13000000 → decode w = .ok .convh) ∧ (w = 0x20000000 → decode w = .ok .meast) ∧
    (w = 0x21000000 → decode w = .ok .meash) ∧ (w = 0x30000000 → decode w = .ok .getur) ∧
    (w &&& 0xFFFFFF00 = 0x31000000 → decode w = .ok (.setur m)) ∧ (w = 0x32000000 → decode w = .ok .srst) ∧
    (¬ (w &&& 0xFF8000FC = 0x01000000 ∧ m ≠ 0) ∧ ¬ (w &&& 0xFF80FFFC = 0x02000000 ∧ m ≠ 0) ∧
     w &&& 0xFF800000 ≠ 0x03000000 ∧ w &&& 0xFF8000FF ≠ 0x04000000 ∧
     ¬ (w &&& 0xFFFFFFFC = 0x10000000 ∧ m ≠ 3) ∧ w ≠ 0x11000000 ∧ w ≠ 0x12000000 ∧ w ≠ 0x13000000 ∧
     w ≠ 0x20000000 ∧ w ≠ 0x21000000 ∧ w ≠ 0x30000000 ∧ w &&& 0xFFFFFF00 ≠ 0x31000000 ∧ w ≠ 0x32000000 →
     ∃ e, decode w = .error e)

/-- Decode of encode is the identity on every well-formed command (30_encoding.md R60 to R63, R67, R68). -/
def Obligations.DecodeOfEncode : Prop := ∀ i : Instr, i.wf = true → decode (encode i) = .ok i

/-- Every legal word is the encoding of the well-formed command it decodes to: no two words mean one command
(30_encoding.md R62, R66). -/
def Obligations.EncodeOfDecode : Prop := ∀ (w : Word) (i : Instr), decode w = .ok i → i.wf = true ∧ encode i = w

/-- 30_encoding.md R69: GETUR, SETUR and SRST behave as the primitive with the operands fixed, at every micro-step. -/
def Obligations.DeviceControlActsAsPrimitive : Prop :=
  ∀ (s : State) (d : Byte),
    exec .getur s = exec (.rdreg Config.devAddr Config.cmdRdUser 1) s ∧
    exec (.setur d) s = exec (.wrreg Config.devAddr Config.cmdWrUser d) s ∧
    exec .srst s = exec (.wrcmd Config.devAddr Config.cmdSoftReset) s

/-! ## Pure commands -/

/-- 41_integrity_check.md R101: CRC8 completes from phase PURE; a mismatch is a result, not a failure. -/
def Obligations.Crc8Completes : Prop :=
  ∀ (s : State) (n : Byte), countOk n = true → s.phase = .pure →
    let data := [s.d.b0, s.d.b1].take n.toNat
    let expected := if n = 0 then s.d.b0 else if n = 1 then s.d.b1 else s.d.b2
    exec (.crc8 n) s = .next
      { s with
        crcVal := crc8 data
        status := { s.status with
          busy := false, done := true, fail := false, errKind := .none, cause := .none,
          crcOk := decide (crc8 data = expected) }
        phase := .idle }

/-- 42_conversion.md R111: `pack(b0, b1)` is `(b0 << 8) | (b1 & 0xFC)`, bit by bit and as a number, a multiple of 4 in
0 .. 65532; `sbits(b1)` is the 2-bit value masked away. -/
def Obligations.PackedSampleLayout : Prop :=
  ∀ b0 b1 : Byte,
    packSample b0 b1 = b0 ++ b1.extractLsb' 2 6 ++ 0#2 ∧
    (packSample b0 b1).toNat = 256 * b0.toNat + (b1 &&& 0xFC).toNat ∧
    (packSample b0 b1).toNat % 4 = 0 ∧ (packSample b0 b1).toNat ≤ 65532 ∧
    statusBits b1 = b1.extractLsb' 0 2 ∧
    256 * b0.toNat + b1.toNat = (packSample b0 b1).toNat + (statusBits b1).toNat

/-- 42_conversion.md R110 with R111: PACK completes from phase PURE. -/
def Obligations.PackCompletes : Prop :=
  ∀ s : State, s.phase = .pure →
    exec .pack s = .next
      { s with
        raw := s.d.b0 ++ s.d.b1.extractLsb' 2 6 ++ 0#2
        status := { s.status with
          busy := false, done := true, fail := false, errKind := .none, cause := .none,
          sbits := s.d.b1.extractLsb' 0 2 }
        phase := .idle }

/-- 42_conversion.md R117 and R118: CONVT and CONVH complete from phase PURE, for every value of `RAW`. -/
def Obligations.ConversionsComplete : Prop :=
  ∀ s : State, s.phase = .pure →
    exec .convt s = .next
      { s with
        resultFx := BitVec.ofInt 32 (17572 * (s.raw.toNat : Int) - 307036160)
        resultFp := fp32 (17572 * (s.raw.toNat : Int) - 307036160) 6553600
        status := { s.status with
          busy := false, done := true, fail := false, errKind := .none, cause := .none,
          rvalid := true, rkind := .temperature }
        phase := .idle } ∧
    exec .convh s = .next
      { s with
        resultFx := BitVec.ofInt 32 (125 * (s.raw.toNat : Int) - 393216)
        resultFp := fp32 (125 * (s.raw.toNat : Int) - 393216) 65536
        status := { s.status with
          busy := false, done := true, fail := false, errKind := .none, cause := .none,
          rvalid := true, rkind := .humidity }
        phase := .idle }

/-! ## Frames: one sequencer step of a bus command -/

/-- 40_transaction_primitives.md R80: the call, the state written and the next `UPC` of each micro-step kind that does not
end its frame. -/
def Obligations.MicroStepEffects : Prop :=
  ∀ (frame : List Micro) (s : State) (onOk : State → State) (onFail : State → Cause → State), s.NextCallReturns →
    let env : Env := { s.env with hangAfter := s.env.hangAfter.map (· - 1) }
    (microAt frame s.upc = some .start → frameStep frame s onOk onFail = .next
      { s with held := true, upc := s.upc + 1, env := { env with calls := env.calls ++ [.start] } }) ∧
    (∀ b c as, microAt frame s.upc = some (.write b c) → s.env.acks = .ack :: as →
      frameStep frame s onOk onFail = .next
        { s with upc := s.upc + 1, env := { env with acks := as, calls := env.calls ++ [.writeByte b .ack] } }) ∧
    (∀ b c as, microAt frame s.upc = some (.write b c) → s.env.acks = .nack :: as →
      frameStep frame s onOk onFail = .next
        { s with upc := 12, causeP := c,
                 env := { env with acks := as, calls := env.calls ++ [.writeByte b .nack] } }) ∧
    (∀ i b bs, microAt frame s.upc = some (.read i) → i < 3 → s.env.bytes = b :: bs →
      frameStep frame s onOk onFail = .next
        { s with
          t := { b0 := if i = 0 then b else s.t.b0, b1 := if i = 1 then b else s.t.b1,
                 b2 := if i = 2 then b else s.t.b2 }
          upc := s.upc + 1
          env := { env with bytes := bs, calls := env.calls ++ [.readByte b] } }) ∧
    (microAt frame s.upc = some .sendAck → frameStep frame s onOk onFail = .next
      { s with upc := s.upc + 1, env := { env with calls := env.calls ++ [.sendAck] } }) ∧
    (microAt frame s.upc = some .sendNack → frameStep frame s onOk onFail = .next
      { s with upc := s.upc + 1, env := { env with calls := env.calls ++ [.sendNack] } })

/-- 40_transaction_primitives.md R80 and 60_exceptions.md R167: an answer no script gives is a free input, and the step goes
on whichever it is. That the free input is the constant `Config.freeAck` or `Config.freeByte`, of which nothing can be
proved, at the counter `free`, which then goes up by one, is the model's choice (log entry 4). -/
def Obligations.UnscriptedAnswersAreFree : Prop :=
  ∀ (frame : List Micro) (s : State) (onOk : State → State) (onFail : State → Cause → State), s.NextCallReturns →
    (∀ b c, microAt frame s.upc = some (.write b c) → s.env.acks = [] →
      let answer := Config.freeAck s.env.free
      ∃ t, frameStep frame s onOk onFail = .next t ∧ t.env.calls = s.env.calls ++ [.writeByte b answer] ∧
        t.env.free = s.env.free + 1 ∧ (answer = .ack → t.upc = s.upc + 1 ∧ t.causeP = s.causeP) ∧
        (answer = .nack → t.upc = 12 ∧ t.causeP = c)) ∧
    (∀ i, microAt frame s.upc = some (.read i) → i < 3 → s.env.bytes = [] →
      let byte := Config.freeByte s.env.free
      ∃ t, frameStep frame s onOk onFail = .next t ∧ t.env.calls = s.env.calls ++ [.readByte byte] ∧
        t.env.free = s.env.free + 1 ∧ t.t.get i = byte ∧ t.upc = s.upc + 1)

/-- 40_transaction_primitives.md R81 and R82, 44_device_control.md R140: the micro-step of RDREG, RDNR and GETUR at every
`UPC`, the read loop of R86 and the abort step among them. -/
def Obligations.ReadFrameTables : Prop :=
  ∀ (a : DevAddr) (r : Byte) (n j : Nat), 1 ≤ n → n ≤ 3 → j < n →
    let aw : Byte := a ++ 0#1
    let ar : Byte := a ++ 1#1
    microAt (frameRdreg a r n) 0 = some .start ∧ microAt (frameRdreg a r n) 1 = some (.write aw .nackAddrW) ∧
    microAt (frameRdreg a r n) 2 = some (.write r .nackReg) ∧ microAt (frameRdreg a r n) 3 = some .start ∧
    microAt (frameRdreg a r n) 4 = some (.write ar .nackAddrR) ∧
    microAt (frameRdreg a r n) (5 + 2 * j) = some (.read j) ∧
    microAt (frameRdreg a r n) (6 + 2 * j) = some (if j + 1 < n then .sendAck else .sendNack) ∧
    microAt (frameRdreg a r n) (5 + 2 * n) = some .stopOk ∧ microAt (frameRdreg a r n) 12 = some .stopFail ∧
    (∀ u, 5 + 2 * n < u → u ≠ 12 → microAt (frameRdreg a r n) u = none) ∧
    microAt (frameRdnr a n) 0 = some .start ∧ microAt (frameRdnr a n) 1 = some (.write ar .nackAddrR) ∧
    microAt (frameRdnr a n) (2 + 2 * j) = some (.read j) ∧
    microAt (frameRdnr a n) (3 + 2 * j) = some (if j + 1 < n then .sendAck else .sendNack) ∧
    microAt (frameRdnr a n) (2 + 2 * n) = some .stopOk ∧ microAt (frameRdnr a n) 12 = some .stopFail ∧
    (∀ u, 2 + 2 * n < u → u ≠ 12 → microAt (frameRdnr a n) u = none)

/-- 40_transaction_primitives.md R89: the four frames are instances of the one parameterised primitive. -/
def Obligations.FramesAreInstancesOfOnePrimitive : Prop :=
  ∀ (a : DevAddr) (r d : Byte) (n : Nat),
    genericFrame true .read a r d n = frameRdreg a r n ∧ genericFrame false .read a r d n = frameRdnr a n ∧
    genericFrame true .write a r d 1 = frameWrreg a r d ∧ genericFrame true .write a r d 0 = frameWrcmd a r

/-- 40_transaction_primitives.md R81, R82 and 44_device_control.md R140: the step of the final `stop()` of RDREG, RDNR and
GETUR completes the command: exactly the registers the rule lists are written. `UPC` staying is the model's choice
(log entry 10). -/
def Obligations.ReadCommandsComplete : Prop :=
  ∀ (s : State) (a : DevAddr) (r n : Byte), lenOk n = true → s.phase = .prim → s.NextCallReturns →
    let done (m : Nat) : State :=
      { s with
        d := ⟨s.t.b0, if 2 ≤ m then s.t.b1 else 0, if m = 3 then s.t.b2 else 0⟩
        status := { s.status with
          busy := false, done := true, fail := false, errKind := .none, cause := .none, rxcnt := BitVec.ofNat 2 m }
        phase := .idle
        held := false
        env := { s.env with hangAfter := s.env.hangAfter.map (· - 1), calls := s.env.calls ++ [.stop] } }
    (s.upc = 5 + 2 * n.toNat → exec (.rdreg a r n) s = .next (done n.toNat)) ∧
    (s.upc = 2 + 2 * n.toNat → exec (.rdnr a n) s = .next (done n.toNat)) ∧
    (s.upc = 7 → exec .getur s = .next (done 1))

/-- 40_transaction_primitives.md R83, R84 and 44_device_control.md R141, R142: the step of the final `stop()` of WRREG,
WRCMD, SETUR and SRST completes the command and writes no data register; so SRST changes no register of the block beyond
the completion's status (70_reset_and_hazards.md R177). `UPC` staying is the model's choice (log entry 10). -/
def Obligations.WriteCommandsComplete : Prop :=
  ∀ (s : State) (a : DevAddr) (r d : Byte), s.phase = .prim → s.NextCallReturns →
    let done : State :=
      { s with
        status := { s.status with busy := false, done := true, fail := false, errKind := .none, cause := .none }
        phase := .idle
        held := false
        env := { s.env with hangAfter := s.env.hangAfter.map (· - 1), calls := s.env.calls ++ [.stop] } }
    (s.upc = 4 → exec (.wrreg a r d) s = .next done) ∧ (s.upc = 3 → exec (.wrcmd a r) s = .next done) ∧
    (s.upc = 4 → exec (.setur d) s = .next done) ∧ (s.upc = 3 → exec .srst s = .next done)

/-- 60_exceptions.md R156 for BusError (40_transaction_primitives.md R81 to R84): the abort step of each of the seven bus
commands, and of a measurement's trigger (43_measurement.md R126), stops the bus, clears every data output and records
the cause. `UPC` staying is the model's choice (log entry 10). -/
def Obligations.AbortStepRaisesBusError : Prop :=
  ∀ (i : Instr) (s : State), startPhase i ≠ .pure → s.phase = startPhase i → s.upc = 12 → s.NextCallReturns →
    exec i s = .next
      { s with
        d := ⟨0, 0, 0⟩, raw := 0, resultFx := 0, resultFp := 0, crcVal := 0
        status := { busy := false, done := true, fail := true, errKind := .busError, cause := s.causeP, crcOk := false,
                    rvalid := false, rkind := .temperature, sbits := 0, rxcnt := 0, pollcnt := 0 }
        phase := .idle
        held := false
        env := { s.env with hangAfter := s.env.hangAfter.map (· - 1), calls := s.env.calls ++ [.stop] } }

/-- Frame of a running bus command or measurement (10_state.md R26, R28, 20_memory.md R50): a step that does not complete the
command leaves every host-visible register, `IR` among them, and the host's side as they are. -/
def Obligations.RunningStepWritesNoVisibleRegister : Prop :=
  ∀ (i : Instr) (s t : State), s.status.busy = true → exec i s = .next t → t.status.busy = true →
    t.d = s.d ∧ t.raw = s.raw ∧ t.resultFx = s.resultFx ∧ t.resultFp = s.resultFp ∧ t.crcVal = s.crcVal ∧ t.ir = s.ir ∧
    t.status = s.status ∧ t.env.host = s.env.host ∧ t.env.reads = s.env.reads

/-- Frame of a successful completion (10_state.md R28, R30): the registers the table of R30 does not give the command keep
their values, and `IR` does. -/
def Obligations.SuccessfulCompletionFrame : Prop :=
  ∀ (i : Instr) (s t : State), s.status.busy = true → exec i s = .next t → t.status.busy = false →
    t.status.fail = false →
    t.ir = s.ir ∧ t.status.done = true ∧ t.status.errKind = .none ∧ t.status.cause = .none ∧ t.phase = .idle ∧
    t.env.host = s.env.host ∧ t.env.reads = s.env.reads ∧
    (match i with
     | .rdreg _ _ _ | .rdnr _ _ | .getur | .meast | .meash => True
     | .wrreg _ _ _ | .wrcmd _ _ | .crc8 _ | .pack | .convt | .convh | .setur _ | .srst =>
       t.d = s.d ∧ t.status.rxcnt = s.status.rxcnt) ∧
    (match i with
     | .pack | .meast | .meash => True
     | .rdreg _ _ _ | .rdnr _ _ | .wrreg _ _ _ | .wrcmd _ _ | .crc8 _ | .convt | .convh | .getur | .setur _ | .srst =>
       t.raw = s.raw ∧ t.status.sbits = s.status.sbits) ∧
    (match i with
     | .crc8 _ | .meast | .meash => True
     | .rdreg _ _ _ | .rdnr _ _ | .wrreg _ _ _ | .wrcmd _ _ | .pack | .convt | .convh | .getur | .setur _ | .srst =>
       t.crcVal = s.crcVal ∧ t.status.crcOk = s.status.crcOk) ∧
    (match i with
     | .convt | .convh | .meast | .meash => True
     | .rdreg _ _ _ | .rdnr _ _ | .wrreg _ _ _ | .wrcmd _ _ | .crc8 _ | .pack | .getur | .setur _ | .srst =>
       t.resultFx = s.resultFx ∧ t.resultFp = s.resultFp ∧ t.status.rvalid = s.status.rvalid ∧
       t.status.rkind = s.status.rkind) ∧
    (match i with
     | .meast | .meash => True
     | .rdreg _ _ _ | .rdnr _ _ | .wrreg _ _ _ | .wrcmd _ _ | .crc8 _ | .pack | .convt | .convh | .getur | .setur _
     | .srst => t.status.pollcnt = s.status.pollcnt)

/-- 60_exceptions.md R156 for every kind of failure of a running command: whatever the command and the cause, a failing
completion leaves the bus idle phase and every data output 0, and does not change `IR`. -/
def Obligations.FailingCompletionClearsEveryOutput : Prop :=
  ∀ (i : Instr) (s t : State), s.status.busy = true → s.status.fail = false → exec i s = .next t →
    t.status.fail = true →
    t.status.busy = false ∧ t.status.done = true ∧ t.phase = .idle ∧ t.d = ⟨0, 0, 0⟩ ∧ t.raw = 0 ∧ t.crcVal = 0 ∧
    t.resultFx = 0 ∧ t.resultFp = 0 ∧ t.status.rxcnt = 0 ∧ t.status.sbits = 0 ∧ t.status.crcOk = false ∧
    t.status.rvalid = false ∧ t.status.rkind.code = 0 ∧ t.ir = s.ir ∧
    (startPhase i ≠ .trig → t.status.pollcnt = 0) ∧ startPhase i ≠ .pure ∧
    t.env.host = s.env.host ∧ t.env.reads = s.env.reads

/-! ## Measurement: one sequencer step -/

/-- 43_measurement.md R126 to R128: the steps of a measurement, for both commands, that leave a phase: the trigger's final
`stop()`, the delay, the final `stop()` of a successful poll, a failed poll, and the exhaustion. `UPC` staying at the end of
a frame is the model's choice (log entry 10). -/
def Obligations.MeasurementPhaseChanges : Prop :=
  ∀ (i : Instr) (s : State), i = .meast ∨ i = .meash → s.NextCallReturns →
    let env : Env := { s.env with hangAfter := s.env.hangAfter.map (· - 1) }
    let stopped : Env := { env with calls := env.calls ++ [.stop] }
    (s.phase = .trig → s.upc = 3 → exec i s = .next { s with k := 0, phase := .delay, held := false, env := stopped }) ∧
    (s.phase = .delay → exec i s = .next
      { s with k := s.k + 1, upc := 0, phase := .poll, env := { env with calls := env.calls ++ [.delay] } }) ∧
    (s.phase = .poll → s.upc = 8 → exec i s = .next { s with phase := .fin, held := false, env := stopped }) ∧
    (s.phase = .poll → s.upc = 12 → s.k < 85 →
      exec i s = .next { s with phase := .delay, held := false, env := stopped }) ∧
    (s.phase = .poll → s.upc = 12 → 85 ≤ s.k → exec i s = .next
      { s with
        d := ⟨0, 0, 0⟩, raw := 0, resultFx := 0, resultFp := 0, crcVal := 0
        status := { busy := false, done := true, fail := true, errKind := .dataError, cause := .pollExhausted,
                    crcOk := false, rvalid := false, rkind := .temperature, sbits := 0, rxcnt := 0, pollcnt := 85 }
        phase := .idle
        held := false
        env := stopped })

/-- 43_measurement.md R125 and R129: the `FIN` step with a matching checksum completes MEAST and MEASH with the writes of
R125, whatever the status bits are (R134) and without an external call. -/
def Obligations.MeasurementCompletes : Prop :=
  ∀ s : State, s.phase = .fin → crc8 [s.t.b0, s.t.b1] = s.t.b2 →
    let tmp : Sample := s.t.b0 ++ s.t.b1.extractLsb' 2 6 ++ 0#2
    let done (q : Quantity) (fx : Int) (units : Nat) : State :=
      { s with
        d := s.t
        raw := tmp
        resultFx := BitVec.ofInt 32 fx
        resultFp := fp32 fx units
        crcVal := crc8 [s.t.b0, s.t.b1]
        status := { busy := false, done := true, fail := false, errKind := .none, cause := .none, crcOk := true,
                    rvalid := true, rkind := q, sbits := s.t.b1.extractLsb' 0 2, rxcnt := 3, pollcnt := s.k }
        phase := .idle }
    exec .meast s = .next (done .temperature (17572 * (tmp.toNat : Int) - 307036160) 6553600) ∧
    exec .meash s = .next (done .humidity (125 * (tmp.toNat : Int) - 393216) 65536)

/-- 43_measurement.md R129 with 60_exceptions.md R156: the `FIN` step with another checksum raises DataError 6 with
`POLLCNT <- K`, and no result register is written other than by the clearing. -/
def Obligations.ChecksumMismatchRaisesDataError : Prop :=
  ∀ (i : Instr) (s : State), i = .meast ∨ i = .meash → s.phase = .fin → crc8 [s.t.b0, s.t.b1] ≠ s.t.b2 →
    exec i s = .next
      { s with
        d := ⟨0, 0, 0⟩, raw := 0, resultFx := 0, resultFp := 0, crcVal := 0
        status := { busy := false, done := true, fail := true, errKind := .dataError, cause := .crcMismatch,
                    crcOk := false, rvalid := false, rkind := .temperature, sbits := 0, rxcnt := 0, pollcnt := s.k }
        phase := .idle }

/-- 43_measurement.md R135: a reading of MEAST or MEASH comes from a validated sample. -/
def Obligations.ReadingComesFromValidatedSample : Prop :=
  ∀ (i : Instr) (q : Quantity) (s t : State), (i, q) = (.meast, .temperature) ∨ (i, q) = (.meash, .humidity) →
    s.status.busy = true → exec i s = .next t → t.status.busy = false → t.status.rvalid = true →
    s.phase = .fin ∧ t.d = s.t ∧ crc8 [t.d.b0, t.d.b1] = t.d.b2 ∧ t.raw = packSample t.d.b0 t.d.b1 ∧
    t.resultFx = resultFxOf q t.raw ∧ t.resultFp = resultFpOf q t.raw ∧ t.status.rkind = q ∧
    t.status.crcOk = true ∧ t.status.fail = false

/-! ## Whole-machine rules -/

/-- 10_state.md R34 at the reset state. -/
def Obligations.ResetSatisfiesInvariant : Prop := ∀ e : Env, State.Inv { State.reset with env := e }

/-- Every step keeps the invariant: R34 with the position of the sequencer. -/
def Obligations.StepKeepsInvariant : Prop := ∀ s s' : State, s.Inv → step s = .next s' → s'.Inv

/-- 10_state.md R34, (a) to (g), in every reachable state. -/
def Obligations.ReachableStatesSatisfyR34 : Prop :=
  ∀ s : State, Reachable s →
    (s.status.busy = true ↔ s.phase ≠ .idle) ∧
    ¬ (s.status.busy = true ∧ s.status.done = true) ∧
    (s.status.busy = false → s.held = false) ∧
    (s.status.fail = false → s.status.errKind.code = 0 ∧ s.status.cause.code = 0) ∧
    (s.status.fail = true → s.status.errKind.code ≠ 0 ∧ s.status.cause.code ≠ 0) ∧
    s.status.rxcnt.toNat ≤ 3 ∧ s.status.pollcnt.toNat ≤ 85 ∧ s.k.toNat ≤ 85 ∧
    (s.status.rvalid = false → s.resultFx = 0 ∧ s.resultFp = 0 ∧ s.status.rkind.code = 0)

/-- 10_state.md R27: from every state of the invariant a step answers a next state, but for the two host actions the spec
gives no meaning (20_memory.md R44, 70_reset_and_hazards.md R176); no fault is ever raised. -/
def Obligations.StepStopsOnlyOnUndefinedHostAction : Prop :=
  ∀ s : State, s.Inv →
    (∃ s', step s = .next s') ∨
    (step s = .refused .resetWhileBusy ∧ s.status.busy = true ∧ ∃ h, s.env.host = .reset :: h) ∨
    (step s = .refused .hostAccessUndefined ∧
      ∃ h off width v, (s.env.host = .read off width :: h ∨ s.env.host = .write off width v :: h) ∧
        ¬ (width = 4 ∧ off % 4 = 0 ∧ off ≤ 0x1C))

/-- 10_state.md R27 and R25, 20_memory.md R51: a step makes at most one external call, keeps the whole history, and `HELD`
says whether the last START or STOP of the history was a START. -/
def Obligations.StepMakesAtMostOneCall : Prop :=
  ∀ s s' : State, s.Inv → step s = .next s' →
    ∃ l, l.length ≤ 1 ∧ s'.env.calls = s.env.calls ++ l ∧ s'.held = heldAfter s.held l

/-- 10_state.md R15, 20_memory.md R55: nothing writes `IR` while `BUSY = 1`. -/
def Obligations.CommandWordIsLatchedWhileBusy : Prop :=
  ∀ s s' : State, s.status.busy = true → step s = .next s' → s'.ir = s.ir

/-- No command reads a flag (10_state.md R19, R23, 41_integrity_check.md R103, 60_exceptions.md R169): whatever `STATUS` held
before, a step writes every other register the same, and each field of `STATUS` is kept or written a value that does not
depend on what `STATUS` held. -/
def Obligations.NoCommandReadsStatus : Prop :=
  ∀ (i : Instr) (s t : State), exec i s = .next t →
    (∀ f : Status, ∃ t', exec i (s.withStatus f) = .next t' ∧
      t'.withStatus Status.reset = t.withStatus Status.reset) ∧
    KeptOrIndependent i s Status.busy ∧ KeptOrIndependent i s Status.done ∧ KeptOrIndependent i s Status.fail ∧
    KeptOrIndependent i s Status.errKind ∧ KeptOrIndependent i s Status.cause ∧ KeptOrIndependent i s Status.crcOk ∧
    KeptOrIndependent i s Status.rvalid ∧ KeptOrIndependent i s Status.rkind ∧ KeptOrIndependent i s Status.sbits ∧
    KeptOrIndependent i s Status.rxcnt ∧ KeptOrIndependent i s Status.pollcnt

/-- 60_exceptions.md R167: when the external call of the block's step never returns, no step is taken: the command stays
running, and stays so. That the model's step then answers the same whole state, the begun call not in the history, is its
own choice (log entry 5). -/
def Obligations.HungCallNeverCompletes : Prop :=
  ∀ s : State, s.Inv → s.status.busy = true → s.phase ≠ .fin → s.phase ≠ .pure → s.env.hangAfter = some 0 →
    s.env.host = [] → ∀ k : Nat, Host.Core.run core k s = .next s

/-- 70_reset_and_hazards.md R187: with nothing left to do for the host, an idle state is final. That the model's step then
answers the same state is its own choice (log entry 2). -/
def Obligations.IdleStateIsFinal : Prop :=
  ∀ s : State, s.status.busy = false → s.env.host = [] → ∀ k : Nat, Host.Core.run core k s = .next s

/-! ## Whole commands -/

/-- 40_transaction_primitives.md R88, success rows of the read frames: RDREG (and GETUR, 44_device_control.md R140) and RDNR
run to completion from acceptance in as many steps as the row has calls, with exactly those calls, and the bytes received
in `D`. -/
def Obligations.ReadCommandsRunToSuccess : Prop :=
  ∀ (s : State) (a : DevAddr) (r n : Byte) (data rest : List Byte) (as : List Ack), lenOk n = true →
    data.length = n.toNat → s.env.host = [] → s.AllCallsReturn → s.env.bytes = data ++ rest →
    let d (i : Nat) : Byte := data.getD i 0
    let address (a : DevAddr) (bit : BitVec 1) : Byte := a ++ bit
    let loop : List Call := ((List.range n.toNat).map fun i =>
      [Call.readByte (d i), if i + 1 < n.toNat then .sendAck else .sendNack]).flatten
    let completed (i : Instr) (trace : List Call) (t : State) : Prop :=
      t.d = ⟨d 0, d 1, d 2⟩ ∧ t.held = false ∧ t.phase = .idle ∧ t.ir = encode i ∧
      t.status = { s.status with busy := false, done := true, fail := false, errKind := .none, cause := .none,
                                 pollcnt := 0, rxcnt := BitVec.ofNat 2 n.toNat } ∧
      t.raw = s.raw ∧ t.resultFx = s.resultFx ∧ t.resultFp = s.resultFp ∧ t.crcVal = s.crcVal ∧
      t.env = { s.env with acks := as, bytes := rest, calls := s.env.calls ++ trace }
    let rdregTrace (a : DevAddr) (r : Byte) : List Call :=
      Call.start :: Call.writeByte (address a 0) .ack :: Call.writeByte r .ack :: Call.start ::
        Call.writeByte (address a 1) .ack :: (loop ++ [Call.stop])
    (s.env.acks = .ack :: .ack :: .ack :: as →
      (∃ t, Host.Core.run core (6 + 2 * n.toNat) (s.accept (encode (.rdreg a r n)) (.rdreg a r n)) = .next t ∧
        completed (.rdreg a r n) (rdregTrace a r) t) ∧
      (n = 1 → ∃ t, Host.Core.run core 8 (s.accept (encode .getur) .getur) = .next t ∧
        completed .getur (rdregTrace Config.devAddr Config.cmdRdUser) t)) ∧
    (s.env.acks = .ack :: as →
      ∃ t, Host.Core.run core (3 + 2 * n.toNat) (s.accept (encode (.rdnr a n)) (.rdnr a n)) = .next t ∧
        completed (.rdnr a n) (Call.start :: Call.writeByte (address a 1) .ack :: (loop ++ [Call.stop])) t)

/-- 40_transaction_primitives.md R88, success rows of the write frames, for WRREG and WRCMD and (44_device_control.md R141,
R142) for SETUR and SRST. -/
def Obligations.WriteCommandsRunToSuccess : Prop :=
  ∀ (s : State) (a : DevAddr) (r d : Byte) (as : List Ack), s.env.host = [] → s.AllCallsReturn →
    let completed (i : Instr) (trace : List Call) (t : State) : Prop :=
      t.d = s.d ∧ t.held = false ∧ t.phase = .idle ∧ t.ir = encode i ∧
      t.status = { s.status with busy := false, done := true, fail := false, errKind := .none, cause := .none,
                                 pollcnt := 0 } ∧
      t.raw = s.raw ∧ t.resultFx = s.resultFx ∧ t.resultFp = s.resultFp ∧ t.crcVal = s.crcVal ∧
      t.env = { s.env with acks := as, calls := s.env.calls ++ trace }
    let runs (steps : Nat) (i : Instr) (trace : List Call) : Prop :=
      ∃ t, Host.Core.run core steps (s.accept (encode i) i) = .next t ∧ completed i trace t
    let aw : Byte := a ++ 0#1
    let dw : Byte := Config.devAddr ++ 0#1
    (s.env.acks = .ack :: .ack :: .ack :: as →
      runs 5 (.wrreg a r d)
        [.start, .writeByte aw .ack, .writeByte r .ack, .writeByte d .ack, .stop] ∧
      runs 5 (.setur d)
        [.start, .writeByte dw .ack, .writeByte Config.cmdWrUser .ack, .writeByte d .ack, .stop]) ∧
    (s.env.acks = .ack :: .ack :: as →
      runs 4 (.wrcmd a r) [.start, .writeByte aw .ack, .writeByte r .ack, .stop] ∧
      runs 4 .srst
        [.start, .writeByte dw .ack, .writeByte Config.cmdSoftReset .ack, .stop])

/-- 40_transaction_primitives.md R88, the nine failing rows, with 60_exceptions.md R151 and R156: the run ends with the
abort's `stop()`, `FAIL = 1`, BusError, the row's cause, and every data output 0; the calls are the row's. -/
def Obligations.RefusedByteEndsCommandInBusError : Prop :=
  ∀ (s : State) (a : DevAddr) (r d n : Byte) (as : List Ack), lenOk n = true → s.env.host = [] → s.AllCallsReturn →
    let aw : Byte := a ++ 0#1
    let ar : Byte := a ++ 1#1
    let fails (steps : Nat) (i : Instr) (cause : Cause) (trace : List Call) : Prop :=
      ∃ t, Host.Core.run core steps (s.accept (encode i) i) = .next t ∧
        t.status = { Status.reset with done := true, fail := true, errKind := .busError, cause := cause } ∧
        t.held = false ∧ t.phase = .idle ∧ t.ir = encode i ∧ t.d = ⟨0, 0, 0⟩ ∧ t.raw = 0 ∧ t.resultFx = 0 ∧
        t.resultFp = 0 ∧ t.crcVal = 0 ∧ t.env = { s.env with acks := as, calls := s.env.calls ++ trace }
    (s.env.acks = .nack :: as →
      fails 3 (.rdreg a r n) .nackAddrW [.start, .writeByte aw .nack, .stop] ∧
      fails 3 (.wrreg a r d) .nackAddrW [.start, .writeByte aw .nack, .stop] ∧
      fails 3 (.wrcmd a r) .nackAddrW [.start, .writeByte aw .nack, .stop] ∧
      fails 3 (.rdnr a n) .nackAddrR [.start, .writeByte ar .nack, .stop]) ∧
    (s.env.acks = .ack :: .nack :: as →
      fails 4 (.rdreg a r n) .nackReg [.start, .writeByte aw .ack, .writeByte r .nack, .stop] ∧
      fails 4 (.wrreg a r d) .nackReg [.start, .writeByte aw .ack, .writeByte r .nack, .stop] ∧
      fails 4 (.wrcmd a r) .nackReg [.start, .writeByte aw .ack, .writeByte r .nack, .stop]) ∧
    (s.env.acks = .ack :: .ack :: .nack :: as →
      fails 6 (.rdreg a r n) .nackAddrR
        [.start, .writeByte aw .ack, .writeByte r .ack, .start, .writeByte ar .nack, .stop] ∧
      fails 5 (.wrreg a r d) .nackData [.start, .writeByte aw .ack, .writeByte r .ack, .writeByte d .nack, .stop])

/-- 43_measurement.md R133 with R125, R130 and R131: a measurement whose read succeeds at attempt `K`, `1 <= K <= 85`, makes
exactly the calls of the trigger, `K - 1` failed attempts and the successful one, then completes in its `FIN` step with
that attempt's data (a matching checksum) or with DataError 6 (another one). -/
def Obligations.MeasurementSucceedsAtAttempt : Prop :=
  ∀ (s : State) (i : Instr) (q : Quantity) (cmd : Byte) (attempts : Nat) (b0 b1 b2 : Byte) (as : List Ack)
    (rest : List Byte),
    (i, q, cmd) = (.meast, .temperature, Config.cmdTrigT) ∨ (i, q, cmd) = (.meash, .humidity, Config.cmdTrigRh) →
    1 ≤ attempts → attempts ≤ 85 → s.env.host = [] → s.AllCallsReturn →
    s.env.acks = .ack :: .ack :: (List.replicate (attempts - 1) .nack ++ .ack :: as) →
    s.env.bytes = b0 :: b1 :: b2 :: rest →
    let aw : Byte := Config.devAddr ++ 0#1
    let ar : Byte := Config.devAddr ++ 1#1
    let failed : List Call := [.delay, .start, .writeByte ar .nack, .stop]
    let trace : List Call :=
      [Call.start, .writeByte aw .ack, .writeByte cmd .ack, .stop] ++ (List.replicate (attempts - 1) failed).flatten ++
      [Call.delay, .start, .writeByte ar .ack, .readByte b0, .sendAck, .readByte b1, .sendAck, .readByte b2, .sendNack,
       .stop]
    ∃ t, Host.Core.run core (4 * attempts + 11) (s.accept (encode i) i) = .next t ∧
      t.ir = encode i ∧ t.phase = .idle ∧ t.held = false ∧
      t.env = { s.env with acks := as, bytes := rest, calls := s.env.calls ++ trace } ∧
      (crc8 [b0, b1] = b2 →
        t.d = ⟨b0, b1, b2⟩ ∧ t.raw = packSample b0 b1 ∧ t.crcVal = b2 ∧
        t.resultFx = resultFxOf q (packSample b0 b1) ∧ t.resultFp = resultFpOf q (packSample b0 b1) ∧
        t.status = { busy := false, done := true, fail := false, errKind := .none, cause := .none, crcOk := true,
                     rvalid := true, rkind := q, sbits := statusBits b1, rxcnt := 3,
                     pollcnt := BitVec.ofNat 7 attempts }) ∧
      (crc8 [b0, b1] ≠ b2 →
        t.d = ⟨0, 0, 0⟩ ∧ t.raw = 0 ∧ t.crcVal = 0 ∧ t.resultFx = 0 ∧ t.resultFp = 0 ∧
        t.status = { Status.reset with done := true, fail := true, errKind := .dataError, cause := .crcMismatch,
                                       pollcnt := BitVec.ofNat 7 attempts })

/-- 43_measurement.md R133 and R128: when all 85 polls fail, a measurement makes 344 calls, 85 of them `delay()`, and ends
with DataError 5 and `POLLCNT = 85` in the step of the last abort's `stop()`. -/
def Obligations.MeasurementExhaustsAfter85Polls : Prop :=
  ∀ (s : State) (i : Instr) (cmd : Byte) (as : List Ack),
    (i, cmd) = (.meast, Config.cmdTrigT) ∨ (i, cmd) = (.meash, Config.cmdTrigRh) →
    s.env.host = [] → s.AllCallsReturn → s.env.acks = .ack :: .ack :: (List.replicate 85 .nack ++ as) →
    let aw : Byte := Config.devAddr ++ 0#1
    let ar : Byte := Config.devAddr ++ 1#1
    let failed : List Call := [.delay, .start, .writeByte ar .nack, .stop]
    let trace : List Call :=
      [Call.start, .writeByte aw .ack, .writeByte cmd .ack, .stop] ++ (List.replicate 85 failed).flatten
    ∃ t, Host.Core.run core 344 (s.accept (encode i) i) = .next t ∧ t.ir = encode i ∧ t.phase = .idle ∧
      t.held = false ∧ t.d = ⟨0, 0, 0⟩ ∧ t.raw = 0 ∧ t.crcVal = 0 ∧ t.resultFx = 0 ∧ t.resultFp = 0 ∧
      t.status = { Status.reset with done := true, fail := true, errKind := .dataError, cause := .pollExhausted,
                                     pollcnt := 85 } ∧
      t.env = { s.env with acks := as, calls := s.env.calls ++ trace }

/-- 43_measurement.md R126 and R132: a trigger byte that is not acknowledged ends the measurement with BusError, and no
`delay()` and no poll follows. -/
def Obligations.TriggerFailureEndsMeasurement : Prop :=
  ∀ (s : State) (i : Instr) (cmd : Byte) (as : List Ack),
    (i, cmd) = (.meast, Config.cmdTrigT) ∨ (i, cmd) = (.meash, Config.cmdTrigRh) →
    s.env.host = [] → s.AllCallsReturn →
    let aw : Byte := Config.devAddr ++ 0#1
    let fails (steps : Nat) (cause : Cause) (trace : List Call) : Prop :=
      ∃ t, Host.Core.run core steps (s.accept (encode i) i) = .next t ∧
        t.status = { Status.reset with done := true, fail := true, errKind := .busError, cause := cause } ∧
        t.held = false ∧ t.phase = .idle ∧ t.d = ⟨0, 0, 0⟩ ∧ t.raw = 0 ∧ t.resultFx = 0 ∧ t.resultFp = 0 ∧
        t.crcVal = 0 ∧ t.env = { s.env with acks := as, calls := s.env.calls ++ trace }
    (s.env.acks = .nack :: as → fails 3 .nackAddrW [.start, .writeByte aw .nack, .stop]) ∧
    (s.env.acks = .ack :: .nack :: as →
      fails 4 .nackReg [.start, .writeByte aw .ack, .writeByte cmd .nack, .stop])

/-- 43_measurement.md R133, 70_reset_and_hazards.md R186 d: whatever the transactor answers, once every external call
returns a running command is over within 351 steps (the longest measurement: 4 calls of the trigger, 84 failed attempts of
4 calls, a successful one of 10, and `FIN`). The steps left over after the completion rest on the idle step, which is the
model's choice (log entry 2). -/
def Obligations.EveryCommandEndsWithin351Steps : Prop :=
  ∀ s : State, s.Inv → s.env.host = [] → s.AllCallsReturn →
    ∃ t, Host.Core.run core 351 s = .next t ∧ t.status.busy = false ∧ t.held = false ∧
      (s.status.busy = true → t.status.done = true ∧ t.ir = s.ir)

/-! ## Checksum -/

/-- 41_integrity_check.md R100: `crc8` is the fold of the byte step with seed 0; a byte is XORed in and goes through eight
rounds, in either of the two spellings of the round. -/
def Obligations.Crc8IsTheByteFold : Prop :=
  let round (acc : Byte) : Byte :=
    if acc.getLsbD 7 = true then ((acc.setWidth 9 <<< 1) ^^^ 0x131#9).setWidth 8 else acc <<< 1
  let round' (acc : Byte) : Byte := if acc.getLsbD 7 = true then (acc <<< 1) ^^^ 0x31 else acc <<< 1
  crc8 [] = 0 ∧ (∀ (bytes : List Byte) (b : Byte), crc8 (bytes ++ [b]) = round^[8] (crc8 bytes ^^^ b)) ∧
  ∀ acc, round acc = round' acc

/-- 41_integrity_check.md R102 (a): the checksum is linear over XOR. -/
def Obligations.Crc8IsLinear : Prop :=
  ∀ x y : List Byte, x.length = y.length → crc8 (List.zipWith (· ^^^ ·) x y) = crc8 x ^^^ crc8 y

/-- 41_integrity_check.md R102 (b) and (c): a sequence followed by its checksum has residue 0, and zeros have checksum 0. -/
def Obligations.Crc8ResidueIsZero : Prop :=
  (∀ bytes : List Byte, crc8 (bytes ++ [crc8 bytes]) = 0) ∧ ∀ n : Nat, crc8 (List.replicate n 0) = 0

/-- 41_integrity_check.md R102 (e): every single-bit flip of a two-byte input changes the checksum. -/
def Obligations.Crc8DetectsSingleBitFlips : Prop :=
  ∀ (b0 b1 : Byte) (j : Nat), j < 8 →
    crc8 [b0 ^^^ (1 <<< j), b1] ≠ crc8 [b0, b1] ∧ crc8 [b0, b1 ^^^ (1 <<< j)] ≠ crc8 [b0, b1]

/-- 41_integrity_check.md R102 (c), (d) and (f): the listed values. -/
def Obligations.Crc8ListedValues : Prop :=
  crc8 [0x01] = 0x31 ∧ crc8 [0x80] = 0x7A ∧ crc8 [0xFF] = 0xAC ∧ crc8 [0x65, 0xFC] = 0xDD ∧
  crc8 [0x31, 0x32, 0x33, 0x34, 0x35, 0x36, 0x37, 0x38, 0x39] = 0xA2

/-! ## Conversion -/

/-- 42_conversion.md R113: `RESULT_FX` of a temperature is the exact formula in units of 1/6553600 degree, without
overflow, strictly increasing and never 0, with the listed values. -/
def Obligations.TemperatureFixedPointIsExact : Prop :=
  (∀ tmp : Sample,
    (resultFxOf .temperature tmp).toInt = 17572 * (tmp.toNat : Int) - 307036160 ∧
    ((resultFxOf .temperature tmp).toInt : ℚ) / 6553600 = -4685 / 100 + 17572 / 100 * (tmp.toNat : ℚ) / 65536 ∧
    resultFxOf .temperature tmp ≠ 0) ∧
  (∀ tmp tmp' : Sample, tmp.toNat < tmp'.toNat →
    (resultFxOf .temperature tmp).toInt < (resultFxOf .temperature tmp').toInt) ∧
  resultFxOf .temperature 0 = 0xEDB30000 ∧ resultFxOf .temperature 65532 = 0x3255ED70 ∧
  resultFxOf .temperature 65535 = 0x3256BB5C ∧ (resultFxOf .temperature 17472).toInt = -18176 ∧
  (resultFxOf .temperature 17473).toInt = -604 ∧ (resultFxOf .temperature 17474).toInt = 16968

/-- 42_conversion.md R114: `RESULT_FX` of a humidity is the exact formula in units of 1/65536 percent, without overflow,
strictly increasing and never 0, with the listed values. -/
def Obligations.HumidityFixedPointIsExact : Prop :=
  (∀ tmp : Sample,
    (resultFxOf .humidity tmp).toInt = 125 * (tmp.toNat : Int) - 393216 ∧
    ((resultFxOf .humidity tmp).toInt : ℚ) / 65536 = -6 + 125 * (tmp.toNat : ℚ) / 65536 ∧
    resultFxOf .humidity tmp ≠ 0) ∧
  (∀ tmp tmp' : Sample, tmp.toNat < tmp'.toNat →
    (resultFxOf .humidity tmp).toInt < (resultFxOf .humidity tmp').toInt) ∧
  resultFxOf .humidity 0 = 0xFFFA0000 ∧ resultFxOf .humidity 65532 = 0x0076FE0C ∧
  resultFxOf .humidity 65535 = 0x0076FF83 ∧ (resultFxOf .humidity 3145).toInt = -91 ∧
  (resultFxOf .humidity 3146).toInt = 34

/-- 42_conversion.md R116: the binary exponent of a positive rational is the `e` with `2^e <= q < 2^(e+1)`, and the
significand is the nearest integer to `q / 2^e * 2^23`, the even one of two equally near, between `2^23` and `2^24`. -/
def Obligations.Binary32RoundsToNearestEven : Prop :=
  ∀ m d : Nat, 0 < m → 0 < d →
    let e := binaryExponent m d
    let f := significand m d
    let x : ℚ := (m : ℚ) / d / (2 : ℚ) ^ e * 2 ^ 23
    (2 : ℚ) ^ e ≤ (m : ℚ) / d ∧ (m : ℚ) / d < (2 : ℚ) ^ (e + 1) ∧ 2 ^ 23 ≤ f ∧ f ≤ 2 ^ 24 ∧
    abs ((f : ℚ) - x) ≤ 1 / 2 ∧ (abs ((f : ℚ) - x) = 1 / 2 → f % 2 = 0)

/-- 42_conversion.md R116 for the arguments that occur: `RESULT_FP` is a normal number with exponent `e` in -14 .. 7, of the
sign of the reading, and within half a unit in the last place of the exact reading. At a power of
two that bound is a whole unit of the binade below. -/
def Obligations.ReadingIsNearestBinary32 : Prop :=
  ∀ (q : Quantity) (tmp : Sample),
    let w := resultFpOf q tmp
    let e : ℤ := ((w.extractLsb' 23 8).toNat : ℤ) - 127
    e ≤ 7 ∧ -14 ≤ e ∧ (w.msb = true ↔ reading q tmp < 0) ∧
    abs (binary32Value w - reading q tmp) ≤ (2 : ℚ) ^ (e - 24)

/-- 42_conversion.md R119: every humidity result is exact in binary32, and the temperature result is strictly increasing. -/
def Obligations.HumidityExactTemperatureIncreasing : Prop :=
  (∀ tmp : Sample, binary32Value (resultFpOf .humidity tmp) = reading .humidity tmp) ∧
  ∀ tmp tmp' : Sample, tmp.toNat < tmp'.toNat →
    binary32Value (resultFpOf .temperature tmp) < binary32Value (resultFpOf .temperature tmp')
end

