-- ==== Sys2Proof/Laws/Codec.lean ====
section
/-! SUPPORT. Laws of command words: a word and its fields, shapes field by field, what a successful decoding says. -/

namespace Sys2Proof

/-! ## Fields of a word put together from fields -/

@[simp] theorem opcField_wordOfFields (o : Byte) (a : DevAddr) (r m : Byte) :
    opcField (wordOfFields o a r m) = o := by
  ext i hi
  simp [opcField, wordOfFields]
  grind

@[simp] theorem addrField_wordOfFields (o : Byte) (a : DevAddr) (r m : Byte) :
    addrField (wordOfFields o a r m) = a := by
  ext i hi
  simp [addrField, wordOfFields]
  grind

@[simp] theorem regField_wordOfFields (o : Byte) (a : DevAddr) (r m : Byte) :
    regField (wordOfFields o a r m) = r := by
  ext i hi
  simp [regField, wordOfFields]
  grind

@[simp] theorem immField_wordOfFields (o : Byte) (a : DevAddr) (r m : Byte) :
    immField (wordOfFields o a r m) = m := by
  ext i hi
  simp [immField, wordOfFields]
  grind

@[simp] theorem z23Field_wordOfFields (o : Byte) (a : DevAddr) (r m : Byte) :
    z23Field (wordOfFields o a r m) = 0 := by
  ext i hi
  simp [z23Field, wordOfFields]
  grind

/-! ## Fields of a masked word -/

@[simp] theorem opcField_and (w v : Word) : opcField (w &&& v) = opcField w &&& opcField v := by
  ext i hi
  simp [opcField]

@[simp] theorem z23Field_and (w v : Word) : z23Field (w &&& v) = z23Field w &&& z23Field v := by
  ext i hi
  simp [z23Field]

@[simp] theorem addrField_and (w v : Word) : addrField (w &&& v) = addrField w &&& addrField v := by
  ext i hi
  simp [addrField]

@[simp] theorem regField_and (w v : Word) : regField (w &&& v) = regField w &&& regField v := by
  ext i hi
  simp [regField]

@[simp] theorem immField_and (w v : Word) : immField (w &&& v) = immField w &&& immField v := by
  ext i hi
  simp [immField]

/-! ## A word is its fields -/

theorem word_of_its_fields (w : Word) :
    opcField w ++ z23Field w ++ addrField w ++ regField w ++ immField w = w := by
  ext i hi
  simp [opcField, z23Field, addrField, regField, immField]
  grind

theorem word_ext {w w' : Word} (ho : opcField w = opcField w') (hz : z23Field w = z23Field w')
    (ha : addrField w = addrField w') (hr : regField w = regField w') (hm : immField w = immField w') : w = w' := by
  rw [← word_of_its_fields w, ← word_of_its_fields w', ho, hz, ha, hr, hm]

/-- A word has a row's shape exactly when each of its fields has the row's part of it. -/
theorem shape_iff (w v p : Word) :
    w &&& v = p ↔
      opcField w &&& opcField v = opcField p ∧ z23Field w &&& z23Field v = z23Field p ∧
      addrField w &&& addrField v = addrField p ∧ regField w &&& regField v = regField p ∧
      immField w &&& immField v = immField p := by
  constructor
  · rintro rfl
    simp
  · rintro ⟨h1, h2, h3, h4, h5⟩
    apply word_ext <;> simpa

theorem eq_wordOfFields_iff (w : Word) (o : Byte) (a : DevAddr) (r m : Byte) :
    w = wordOfFields o a r m ↔
      opcField w = o ∧ z23Field w = 0 ∧ addrField w = a ∧ regField w = r ∧ immField w = m := by
  constructor
  · rintro rfl
    simp
  · rintro ⟨h1, h2, h3, h4, h5⟩
    apply word_ext <;> simpa

/-! ## Operand ranges -/

theorem lenOk_iff (n : Byte) : lenOk n = true ↔ n = 1 ∨ n = 2 ∨ n = 3 := by
  revert n
  decide +kernel

theorem countOk_iff (n : Byte) : countOk n = true ↔ n = 0 ∨ n = 1 ∨ n = 2 := by
  revert n
  decide +kernel

/-- `IMM[7:2] = 0` and `LEN` not 0: the range of LEN. -/
theorem lenOk_iff_mask (n : Byte) : lenOk n = true ↔ n &&& 0xFC = 0 ∧ n ≠ 0 := by
  revert n
  decide +kernel

/-- `IMM[7:2] = 0` and `N` not 3: the range of N. -/
theorem countOk_iff_mask (n : Byte) : countOk n = true ↔ n &&& 0xFC = 0 ∧ n ≠ 3 := by
  revert n
  decide +kernel

/-! ## What a successful decoding says -/

theorem decode_eq_ok {w : Word} {i : Instr} (h : decode w = .ok i) :
    ∃ row, rowOf w = some row ∧ w &&& row.mask = row.pattern ∧ alsoCheck row.op w = none ∧
      i = commandOf row.op w := by
  unfold decode at h
  split at h
  · cases h
  · split at h
    · split at h
      · cases h
      · cases h
        exact ⟨_, by assumption, by assumption, by assumption, rfl⟩
    · cases h

theorem decode_of_row {w : Word} {row : OpRow} (hr : rowOf w = some row) (hs : w &&& row.mask = row.pattern)
    (ha : alsoCheck row.op w = none) : decode w = .ok (commandOf row.op w) := by
  simp [decode, hr, hs, ha]

theorem rowOf_mem {w : Word} {row : OpRow} (h : rowOf w = some row) : row ∈ opTable ∧ row.opc = opcField w :=
  ⟨List.mem_of_find?_eq_some h, by simpa using List.find?_some h⟩

end Sys2Proof
end

