-- ==== Sys2Proof/Laws/State.lean ====
section
/-! SUPPORT. What each named update of the state writes, field by field. -/

namespace Sys2Proof.Machine

variable (s : State)

/-! `State.record` -/
@[simp] theorem State.record_d (c : Call) : (s.record c).d = s.d := rfl
@[simp] theorem State.record_raw (c : Call) : (s.record c).raw = s.raw := rfl
@[simp] theorem State.record_resultFx (c : Call) : (s.record c).resultFx = s.resultFx := rfl
@[simp] theorem State.record_resultFp (c : Call) : (s.record c).resultFp = s.resultFp := rfl
@[simp] theorem State.record_crcVal (c : Call) : (s.record c).crcVal = s.crcVal := rfl
@[simp] theorem State.record_ir (c : Call) : (s.record c).ir = s.ir := rfl
@[simp] theorem State.record_status (c : Call) : (s.record c).status = s.status := rfl
@[simp] theorem State.record_phase (c : Call) : (s.record c).phase = s.phase := rfl
@[simp] theorem State.record_upc (c : Call) : (s.record c).upc = s.upc := rfl
@[simp] theorem State.record_held (c : Call) : (s.record c).held = s.held := rfl
@[simp] theorem State.record_t (c : Call) : (s.record c).t = s.t := rfl
@[simp] theorem State.record_k (c : Call) : (s.record c).k = s.k := rfl
@[simp] theorem State.record_causeP (c : Call) : (s.record c).causeP = s.causeP := rfl
@[simp] theorem State.record_env (c : Call) : (s.record c).env = { s.env with calls := s.env.calls ++ [c] } := rfl

/-! `State.spendCall` -/
@[simp] theorem State.spendCall_d : (s.spendCall).d = s.d := rfl
@[simp] theorem State.spendCall_raw : (s.spendCall).raw = s.raw := rfl
@[simp] theorem State.spendCall_resultFx : (s.spendCall).resultFx = s.resultFx := rfl
@[simp] theorem State.spendCall_resultFp : (s.spendCall).resultFp = s.resultFp := rfl
@[simp] theorem State.spendCall_crcVal : (s.spendCall).crcVal = s.crcVal := rfl
@[simp] theorem State.spendCall_ir : (s.spendCall).ir = s.ir := rfl
@[simp] theorem State.spendCall_status : (s.spendCall).status = s.status := rfl
@[simp] theorem State.spendCall_phase : (s.spendCall).phase = s.phase := rfl
@[simp] theorem State.spendCall_upc : (s.spendCall).upc = s.upc := rfl
@[simp] theorem State.spendCall_held : (s.spendCall).held = s.held := rfl
@[simp] theorem State.spendCall_t : (s.spendCall).t = s.t := rfl
@[simp] theorem State.spendCall_k : (s.spendCall).k = s.k := rfl
@[simp] theorem State.spendCall_causeP : (s.spendCall).causeP = s.causeP := rfl
@[simp] theorem State.spendCall_env : (s.spendCall).env = { s.env with hangAfter := s.env.hangAfter.map (· - 1) } := rfl

/-! `State.dropAck` -/
@[simp] theorem State.dropAck_d : (s.dropAck).d = s.d := rfl
@[simp] theorem State.dropAck_raw : (s.dropAck).raw = s.raw := rfl
@[simp] theorem State.dropAck_resultFx : (s.dropAck).resultFx = s.resultFx := rfl
@[simp] theorem State.dropAck_resultFp : (s.dropAck).resultFp = s.resultFp := rfl
@[simp] theorem State.dropAck_crcVal : (s.dropAck).crcVal = s.crcVal := rfl
@[simp] theorem State.dropAck_ir : (s.dropAck).ir = s.ir := rfl
@[simp] theorem State.dropAck_status : (s.dropAck).status = s.status := rfl
@[simp] theorem State.dropAck_phase : (s.dropAck).phase = s.phase := rfl
@[simp] theorem State.dropAck_upc : (s.dropAck).upc = s.upc := rfl
@[simp] theorem State.dropAck_held : (s.dropAck).held = s.held := rfl
@[simp] theorem State.dropAck_t : (s.dropAck).t = s.t := rfl
@[simp] theorem State.dropAck_k : (s.dropAck).k = s.k := rfl
@[simp] theorem State.dropAck_causeP : (s.dropAck).causeP = s.causeP := rfl
@[simp] theorem State.dropAck_env :
    (s.dropAck).env = { s.env with acks := s.env.acks.tail, free := if s.env.acks = [] then s.env.free + 1 else s.env.free } := rfl

/-! `State.dropByte` -/
@[simp] theorem State.dropByte_d : (s.dropByte).d = s.d := rfl
@[simp] theorem State.dropByte_raw : (s.dropByte).raw = s.raw := rfl
@[simp] theorem State.dropByte_resultFx : (s.dropByte).resultFx = s.resultFx := rfl
@[simp] theorem State.dropByte_resultFp : (s.dropByte).resultFp = s.resultFp := rfl
@[simp] theorem State.dropByte_crcVal : (s.dropByte).crcVal = s.crcVal := rfl
@[simp] theorem State.dropByte_ir : (s.dropByte).ir = s.ir := rfl
@[simp] theorem State.dropByte_status : (s.dropByte).status = s.status := rfl
@[simp] theorem State.dropByte_phase : (s.dropByte).phase = s.phase := rfl
@[simp] theorem State.dropByte_upc : (s.dropByte).upc = s.upc := rfl
@[simp] theorem State.dropByte_held : (s.dropByte).held = s.held := rfl
@[simp] theorem State.dropByte_t : (s.dropByte).t = s.t := rfl
@[simp] theorem State.dropByte_k : (s.dropByte).k = s.k := rfl
@[simp] theorem State.dropByte_causeP : (s.dropByte).causeP = s.causeP := rfl
@[simp] theorem State.dropByte_env :
    (s.dropByte).env = { s.env with bytes := s.env.bytes.tail, free := if s.env.bytes = [] then s.env.free + 1 else s.env.free } := rfl

/-! `State.callStart` -/
@[simp] theorem State.callStart_d : (s.callStart).d = s.d := rfl
@[simp] theorem State.callStart_raw : (s.callStart).raw = s.raw := rfl
@[simp] theorem State.callStart_resultFx : (s.callStart).resultFx = s.resultFx := rfl
@[simp] theorem State.callStart_resultFp : (s.callStart).resultFp = s.resultFp := rfl
@[simp] theorem State.callStart_crcVal : (s.callStart).crcVal = s.crcVal := rfl
@[simp] theorem State.callStart_ir : (s.callStart).ir = s.ir := rfl
@[simp] theorem State.callStart_status : (s.callStart).status = s.status := rfl
@[simp] theorem State.callStart_phase : (s.callStart).phase = s.phase := rfl
@[simp] theorem State.callStart_upc : (s.callStart).upc = s.upc := rfl
@[simp] theorem State.callStart_held : (s.callStart).held = true := rfl
@[simp] theorem State.callStart_t : (s.callStart).t = s.t := rfl
@[simp] theorem State.callStart_k : (s.callStart).k = s.k := rfl
@[simp] theorem State.callStart_causeP : (s.callStart).causeP = s.causeP := rfl
@[simp] theorem State.callStart_env : (s.callStart).env = (s.record .start).env := rfl

/-! `State.callStop` -/
@[simp] theorem State.callStop_d : (s.callStop).d = s.d := rfl
@[simp] theorem State.callStop_raw : (s.callStop).raw = s.raw := rfl
@[simp] theorem State.callStop_resultFx : (s.callStop).resultFx = s.resultFx := rfl
@[simp] theorem State.callStop_resultFp : (s.callStop).resultFp = s.resultFp := rfl
@[simp] theorem State.callStop_crcVal : (s.callStop).crcVal = s.crcVal := rfl
@[simp] theorem State.callStop_ir : (s.callStop).ir = s.ir := rfl
@[simp] theorem State.callStop_status : (s.callStop).status = s.status := rfl
@[simp] theorem State.callStop_phase : (s.callStop).phase = s.phase := rfl
@[simp] theorem State.callStop_upc : (s.callStop).upc = s.upc := rfl
@[simp] theorem State.callStop_held : (s.callStop).held = false := rfl
@[simp] theorem State.callStop_t : (s.callStop).t = s.t := rfl
@[simp] theorem State.callStop_k : (s.callStop).k = s.k := rfl
@[simp] theorem State.callStop_causeP : (s.callStop).causeP = s.causeP := rfl
@[simp] theorem State.callStop_env : (s.callStop).env = (s.record .stop).env := rfl

/-! `State.callWrite` -/
@[simp] theorem State.callWrite_d (b : Byte) : (s.callWrite b).d = s.d := rfl
@[simp] theorem State.callWrite_raw (b : Byte) : (s.callWrite b).raw = s.raw := rfl
@[simp] theorem State.callWrite_resultFx (b : Byte) : (s.callWrite b).resultFx = s.resultFx := rfl
@[simp] theorem State.callWrite_resultFp (b : Byte) : (s.callWrite b).resultFp = s.resultFp := rfl
@[simp] theorem State.callWrite_crcVal (b : Byte) : (s.callWrite b).crcVal = s.crcVal := rfl
@[simp] theorem State.callWrite_ir (b : Byte) : (s.callWrite b).ir = s.ir := rfl
@[simp] theorem State.callWrite_status (b : Byte) : (s.callWrite b).status = s.status := rfl
@[simp] theorem State.callWrite_phase (b : Byte) : (s.callWrite b).phase = s.phase := rfl
@[simp] theorem State.callWrite_upc (b : Byte) : (s.callWrite b).upc = s.upc := rfl
@[simp] theorem State.callWrite_held (b : Byte) : (s.callWrite b).held = s.held := rfl
@[simp] theorem State.callWrite_t (b : Byte) : (s.callWrite b).t = s.t := rfl
@[simp] theorem State.callWrite_k (b : Byte) : (s.callWrite b).k = s.k := rfl
@[simp] theorem State.callWrite_causeP (b : Byte) : (s.callWrite b).causeP = s.causeP := rfl
@[simp] theorem State.callWrite_env (b : Byte) :
    (s.callWrite b).env = (s.dropAck.record (.writeByte b s.ackAnswer)).env := rfl

/-! `State.callRead` -/
@[simp] theorem State.callRead_d (i : Nat) : (s.callRead i).d = s.d := rfl
@[simp] theorem State.callRead_raw (i : Nat) : (s.callRead i).raw = s.raw := rfl
@[simp] theorem State.callRead_resultFx (i : Nat) : (s.callRead i).resultFx = s.resultFx := rfl
@[simp] theorem State.callRead_resultFp (i : Nat) : (s.callRead i).resultFp = s.resultFp := rfl
@[simp] theorem State.callRead_crcVal (i : Nat) : (s.callRead i).crcVal = s.crcVal := rfl
@[simp] theorem State.callRead_ir (i : Nat) : (s.callRead i).ir = s.ir := rfl
@[simp] theorem State.callRead_status (i : Nat) : (s.callRead i).status = s.status := rfl
@[simp] theorem State.callRead_phase (i : Nat) : (s.callRead i).phase = s.phase := rfl
@[simp] theorem State.callRead_upc (i : Nat) : (s.callRead i).upc = s.upc := rfl
@[simp] theorem State.callRead_held (i : Nat) : (s.callRead i).held = s.held := rfl
@[simp] theorem State.callRead_t (i : Nat) : (s.callRead i).t = s.t.set i s.byteAnswer := rfl
@[simp] theorem State.callRead_k (i : Nat) : (s.callRead i).k = s.k := rfl
@[simp] theorem State.callRead_causeP (i : Nat) : (s.callRead i).causeP = s.causeP := rfl
@[simp] theorem State.callRead_env (i : Nat) :
    (s.callRead i).env = (s.dropByte.record (.readByte s.byteAnswer)).env := rfl

/-! `State.advance` -/
@[simp] theorem State.advance_d : (s.advance).d = s.d := rfl
@[simp] theorem State.advance_raw : (s.advance).raw = s.raw := rfl
@[simp] theorem State.advance_resultFx : (s.advance).resultFx = s.resultFx := rfl
@[simp] theorem State.advance_resultFp : (s.advance).resultFp = s.resultFp := rfl
@[simp] theorem State.advance_crcVal : (s.advance).crcVal = s.crcVal := rfl
@[simp] theorem State.advance_ir : (s.advance).ir = s.ir := rfl
@[simp] theorem State.advance_status : (s.advance).status = s.status := rfl
@[simp] theorem State.advance_phase : (s.advance).phase = s.phase := rfl
@[simp] theorem State.advance_upc : (s.advance).upc = s.upc + 1 := rfl
@[simp] theorem State.advance_held : (s.advance).held = s.held := rfl
@[simp] theorem State.advance_t : (s.advance).t = s.t := rfl
@[simp] theorem State.advance_k : (s.advance).k = s.k := rfl
@[simp] theorem State.advance_causeP : (s.advance).causeP = s.causeP := rfl
@[simp] theorem State.advance_env : (s.advance).env = s.env := rfl

/-! `State.accept` -/
@[simp] theorem State.accept_d (w : Word) (i : Instr) : (s.accept w i).d = s.d := rfl
@[simp] theorem State.accept_raw (w : Word) (i : Instr) : (s.accept w i).raw = s.raw := rfl
@[simp] theorem State.accept_resultFx (w : Word) (i : Instr) : (s.accept w i).resultFx = s.resultFx := rfl
@[simp] theorem State.accept_resultFp (w : Word) (i : Instr) : (s.accept w i).resultFp = s.resultFp := rfl
@[simp] theorem State.accept_crcVal (w : Word) (i : Instr) : (s.accept w i).crcVal = s.crcVal := rfl
@[simp] theorem State.accept_ir (w : Word) (i : Instr) : (s.accept w i).ir = w := rfl
@[simp] theorem State.accept_status (w : Word) (i : Instr) :
    (s.accept w i).status = { s.status with busy := true, done := false, fail := false, errKind := .none, cause := .none, pollcnt := 0 } := rfl
@[simp] theorem State.accept_phase (w : Word) (i : Instr) : (s.accept w i).phase = startPhase i := rfl
@[simp] theorem State.accept_upc (w : Word) (i : Instr) : (s.accept w i).upc = 0 := rfl
@[simp] theorem State.accept_held (w : Word) (i : Instr) : (s.accept w i).held = s.held := rfl
@[simp] theorem State.accept_t (w : Word) (i : Instr) : (s.accept w i).t = s.t := rfl
@[simp] theorem State.accept_k (w : Word) (i : Instr) : (s.accept w i).k = 0 := rfl
@[simp] theorem State.accept_causeP (w : Word) (i : Instr) : (s.accept w i).causeP = s.causeP := rfl
@[simp] theorem State.accept_env (w : Word) (i : Instr) : (s.accept w i).env = s.env := rfl

/-! `State.completeOk` -/
@[simp] theorem State.completeOk_d : (s.completeOk).d = s.d := rfl
@[simp] theorem State.completeOk_raw : (s.completeOk).raw = s.raw := rfl
@[simp] theorem State.completeOk_resultFx : (s.completeOk).resultFx = s.resultFx := rfl
@[simp] theorem State.completeOk_resultFp : (s.completeOk).resultFp = s.resultFp := rfl
@[simp] theorem State.completeOk_crcVal : (s.completeOk).crcVal = s.crcVal := rfl
@[simp] theorem State.completeOk_ir : (s.completeOk).ir = s.ir := rfl
@[simp] theorem State.completeOk_status :
    (s.completeOk).status = { s.status with busy := false, done := true, fail := false, errKind := .none, cause := .none } := rfl
@[simp] theorem State.completeOk_phase : (s.completeOk).phase = .idle := rfl
@[simp] theorem State.completeOk_upc : (s.completeOk).upc = s.upc := rfl
@[simp] theorem State.completeOk_held : (s.completeOk).held = s.held := rfl
@[simp] theorem State.completeOk_t : (s.completeOk).t = s.t := rfl
@[simp] theorem State.completeOk_k : (s.completeOk).k = s.k := rfl
@[simp] theorem State.completeOk_causeP : (s.completeOk).causeP = s.causeP := rfl
@[simp] theorem State.completeOk_env : (s.completeOk).env = s.env := rfl

/-! `State.raise` -/
@[simp] theorem State.raise_d (e : ErrKind) (c : Cause) (p : BitVec 7) : (s.raise e c p).d = ⟨0, 0, 0⟩ := rfl
@[simp] theorem State.raise_raw (e : ErrKind) (c : Cause) (p : BitVec 7) : (s.raise e c p).raw = 0 := rfl
@[simp] theorem State.raise_resultFx (e : ErrKind) (c : Cause) (p : BitVec 7) : (s.raise e c p).resultFx = 0 := rfl
@[simp] theorem State.raise_resultFp (e : ErrKind) (c : Cause) (p : BitVec 7) : (s.raise e c p).resultFp = 0 := rfl
@[simp] theorem State.raise_crcVal (e : ErrKind) (c : Cause) (p : BitVec 7) : (s.raise e c p).crcVal = 0 := rfl
@[simp] theorem State.raise_ir (e : ErrKind) (c : Cause) (p : BitVec 7) : (s.raise e c p).ir = s.ir := rfl
@[simp] theorem State.raise_status (e : ErrKind) (c : Cause) (p : BitVec 7) :
    (s.raise e c p).status = ⟨false, true, true, e, c, false, false, .temperature, 0, 0, p⟩ := rfl
@[simp] theorem State.raise_phase (e : ErrKind) (c : Cause) (p : BitVec 7) : (s.raise e c p).phase = .idle := rfl
@[simp] theorem State.raise_upc (e : ErrKind) (c : Cause) (p : BitVec 7) : (s.raise e c p).upc = s.upc := rfl
@[simp] theorem State.raise_held (e : ErrKind) (c : Cause) (p : BitVec 7) : (s.raise e c p).held = s.held := rfl
@[simp] theorem State.raise_t (e : ErrKind) (c : Cause) (p : BitVec 7) : (s.raise e c p).t = s.t := rfl
@[simp] theorem State.raise_k (e : ErrKind) (c : Cause) (p : BitVec 7) : (s.raise e c p).k = s.k := rfl
@[simp] theorem State.raise_causeP (e : ErrKind) (c : Cause) (p : BitVec 7) : (s.raise e c p).causeP = s.causeP := rfl
@[simp] theorem State.raise_env (e : ErrKind) (c : Cause) (p : BitVec 7) : (s.raise e c p).env = s.env := rfl

/-! `State.raiseBus` -/
@[simp] theorem State.raiseBus_d (c : Cause) : (s.raiseBus c).d = ⟨0, 0, 0⟩ := rfl
@[simp] theorem State.raiseBus_raw (c : Cause) : (s.raiseBus c).raw = 0 := rfl
@[simp] theorem State.raiseBus_resultFx (c : Cause) : (s.raiseBus c).resultFx = 0 := rfl
@[simp] theorem State.raiseBus_resultFp (c : Cause) : (s.raiseBus c).resultFp = 0 := rfl
@[simp] theorem State.raiseBus_crcVal (c : Cause) : (s.raiseBus c).crcVal = 0 := rfl
@[simp] theorem State.raiseBus_ir (c : Cause) : (s.raiseBus c).ir = s.ir := rfl
@[simp] theorem State.raiseBus_status (c : Cause) :
    (s.raiseBus c).status = ⟨false, true, true, .busError, c, false, false, .temperature, 0, 0, 0⟩ := rfl
@[simp] theorem State.raiseBus_phase (c : Cause) : (s.raiseBus c).phase = .idle := rfl
@[simp] theorem State.raiseBus_upc (c : Cause) : (s.raiseBus c).upc = s.upc := rfl
@[simp] theorem State.raiseBus_held (c : Cause) : (s.raiseBus c).held = s.held := rfl
@[simp] theorem State.raiseBus_t (c : Cause) : (s.raiseBus c).t = s.t := rfl
@[simp] theorem State.raiseBus_k (c : Cause) : (s.raiseBus c).k = s.k := rfl
@[simp] theorem State.raiseBus_causeP (c : Cause) : (s.raiseBus c).causeP = s.causeP := rfl
@[simp] theorem State.raiseBus_env (c : Cause) : (s.raiseBus c).env = s.env := rfl

/-! `State.storeRead` -/
@[simp] theorem State.storeRead_d (n : Nat) : (s.storeRead n).d = s.t.firstBytes n := rfl
@[simp] theorem State.storeRead_raw (n : Nat) : (s.storeRead n).raw = s.raw := rfl
@[simp] theorem State.storeRead_resultFx (n : Nat) : (s.storeRead n).resultFx = s.resultFx := rfl
@[simp] theorem State.storeRead_resultFp (n : Nat) : (s.storeRead n).resultFp = s.resultFp := rfl
@[simp] theorem State.storeRead_crcVal (n : Nat) : (s.storeRead n).crcVal = s.crcVal := rfl
@[simp] theorem State.storeRead_ir (n : Nat) : (s.storeRead n).ir = s.ir := rfl
@[simp] theorem State.storeRead_status (n : Nat) :
    (s.storeRead n).status = { s.status with rxcnt := BitVec.ofNat 2 n } := rfl
@[simp] theorem State.storeRead_phase (n : Nat) : (s.storeRead n).phase = s.phase := rfl
@[simp] theorem State.storeRead_upc (n : Nat) : (s.storeRead n).upc = s.upc := rfl
@[simp] theorem State.storeRead_held (n : Nat) : (s.storeRead n).held = s.held := rfl
@[simp] theorem State.storeRead_t (n : Nat) : (s.storeRead n).t = s.t := rfl
@[simp] theorem State.storeRead_k (n : Nat) : (s.storeRead n).k = s.k := rfl
@[simp] theorem State.storeRead_causeP (n : Nat) : (s.storeRead n).causeP = s.causeP := rfl
@[simp] theorem State.storeRead_env (n : Nat) : (s.storeRead n).env = s.env := rfl

/-! `State.storeSample` -/
@[simp] theorem State.storeSample_d (b0 b1 : Byte) : (s.storeSample b0 b1).d = s.d := rfl
@[simp] theorem State.storeSample_raw (b0 b1 : Byte) : (s.storeSample b0 b1).raw = packSample b0 b1 := rfl
@[simp] theorem State.storeSample_resultFx (b0 b1 : Byte) : (s.storeSample b0 b1).resultFx = s.resultFx := rfl
@[simp] theorem State.storeSample_resultFp (b0 b1 : Byte) : (s.storeSample b0 b1).resultFp = s.resultFp := rfl
@[simp] theorem State.storeSample_crcVal (b0 b1 : Byte) : (s.storeSample b0 b1).crcVal = s.crcVal := rfl
@[simp] theorem State.storeSample_ir (b0 b1 : Byte) : (s.storeSample b0 b1).ir = s.ir := rfl
@[simp] theorem State.storeSample_status (b0 b1 : Byte) :
    (s.storeSample b0 b1).status = { s.status with sbits := statusBits b1 } := rfl
@[simp] theorem State.storeSample_phase (b0 b1 : Byte) : (s.storeSample b0 b1).phase = s.phase := rfl
@[simp] theorem State.storeSample_upc (b0 b1 : Byte) : (s.storeSample b0 b1).upc = s.upc := rfl
@[simp] theorem State.storeSample_held (b0 b1 : Byte) : (s.storeSample b0 b1).held = s.held := rfl
@[simp] theorem State.storeSample_t (b0 b1 : Byte) : (s.storeSample b0 b1).t = s.t := rfl
@[simp] theorem State.storeSample_k (b0 b1 : Byte) : (s.storeSample b0 b1).k = s.k := rfl
@[simp] theorem State.storeSample_causeP (b0 b1 : Byte) : (s.storeSample b0 b1).causeP = s.causeP := rfl
@[simp] theorem State.storeSample_env (b0 b1 : Byte) : (s.storeSample b0 b1).env = s.env := rfl

/-! `State.storeReading` -/
@[simp] theorem State.storeReading_d (q : Quantity) (x : Sample) : (s.storeReading q x).d = s.d := rfl
@[simp] theorem State.storeReading_raw (q : Quantity) (x : Sample) : (s.storeReading q x).raw = s.raw := rfl
@[simp] theorem State.storeReading_resultFx (q : Quantity) (x : Sample) :
    (s.storeReading q x).resultFx = resultFxOf q x := rfl
@[simp] theorem State.storeReading_resultFp (q : Quantity) (x : Sample) :
    (s.storeReading q x).resultFp = resultFpOf q x := rfl
@[simp] theorem State.storeReading_crcVal (q : Quantity) (x : Sample) : (s.storeReading q x).crcVal = s.crcVal := rfl
@[simp] theorem State.storeReading_ir (q : Quantity) (x : Sample) : (s.storeReading q x).ir = s.ir := rfl
@[simp] theorem State.storeReading_status (q : Quantity) (x : Sample) :
    (s.storeReading q x).status = { s.status with rvalid := true, rkind := q } := rfl
@[simp] theorem State.storeReading_phase (q : Quantity) (x : Sample) : (s.storeReading q x).phase = s.phase := rfl
@[simp] theorem State.storeReading_upc (q : Quantity) (x : Sample) : (s.storeReading q x).upc = s.upc := rfl
@[simp] theorem State.storeReading_held (q : Quantity) (x : Sample) : (s.storeReading q x).held = s.held := rfl
@[simp] theorem State.storeReading_t (q : Quantity) (x : Sample) : (s.storeReading q x).t = s.t := rfl
@[simp] theorem State.storeReading_k (q : Quantity) (x : Sample) : (s.storeReading q x).k = s.k := rfl
@[simp] theorem State.storeReading_causeP (q : Quantity) (x : Sample) : (s.storeReading q x).causeP = s.causeP := rfl
@[simp] theorem State.storeReading_env (q : Quantity) (x : Sample) : (s.storeReading q x).env = s.env := rfl

/-! `State.beginPoll` -/
@[simp] theorem State.beginPoll_d : (s.beginPoll).d = s.d := rfl
@[simp] theorem State.beginPoll_raw : (s.beginPoll).raw = s.raw := rfl
@[simp] theorem State.beginPoll_resultFx : (s.beginPoll).resultFx = s.resultFx := rfl
@[simp] theorem State.beginPoll_resultFp : (s.beginPoll).resultFp = s.resultFp := rfl
@[simp] theorem State.beginPoll_crcVal : (s.beginPoll).crcVal = s.crcVal := rfl
@[simp] theorem State.beginPoll_ir : (s.beginPoll).ir = s.ir := rfl
@[simp] theorem State.beginPoll_status : (s.beginPoll).status = s.status := rfl
@[simp] theorem State.beginPoll_phase : (s.beginPoll).phase = .poll := rfl
@[simp] theorem State.beginPoll_upc : (s.beginPoll).upc = 0 := rfl
@[simp] theorem State.beginPoll_held : (s.beginPoll).held = s.held := rfl
@[simp] theorem State.beginPoll_t : (s.beginPoll).t = s.t := rfl
@[simp] theorem State.beginPoll_k : (s.beginPoll).k = s.k + 1 := rfl
@[simp] theorem State.beginPoll_causeP : (s.beginPoll).causeP = s.causeP := rfl
@[simp] theorem State.beginPoll_env : (s.beginPoll).env = (s.record .delay).env := rfl

/-! `State.triggered` -/
@[simp] theorem State.triggered_d : (s.triggered).d = s.d := rfl
@[simp] theorem State.triggered_raw : (s.triggered).raw = s.raw := rfl
@[simp] theorem State.triggered_resultFx : (s.triggered).resultFx = s.resultFx := rfl
@[simp] theorem State.triggered_resultFp : (s.triggered).resultFp = s.resultFp := rfl
@[simp] theorem State.triggered_crcVal : (s.triggered).crcVal = s.crcVal := rfl
@[simp] theorem State.triggered_ir : (s.triggered).ir = s.ir := rfl
@[simp] theorem State.triggered_status : (s.triggered).status = s.status := rfl
@[simp] theorem State.triggered_phase : (s.triggered).phase = .delay := rfl
@[simp] theorem State.triggered_upc : (s.triggered).upc = s.upc := rfl
@[simp] theorem State.triggered_held : (s.triggered).held = s.held := rfl
@[simp] theorem State.triggered_t : (s.triggered).t = s.t := rfl
@[simp] theorem State.triggered_k : (s.triggered).k = 0 := rfl
@[simp] theorem State.triggered_causeP : (s.triggered).causeP = s.causeP := rfl
@[simp] theorem State.triggered_env : (s.triggered).env = s.env := rfl

/-! `State.withHost` -/
@[simp] theorem State.withHost_d (h : List HostAct) : (s.withHost h).d = s.d := rfl
@[simp] theorem State.withHost_raw (h : List HostAct) : (s.withHost h).raw = s.raw := rfl
@[simp] theorem State.withHost_resultFx (h : List HostAct) : (s.withHost h).resultFx = s.resultFx := rfl
@[simp] theorem State.withHost_resultFp (h : List HostAct) : (s.withHost h).resultFp = s.resultFp := rfl
@[simp] theorem State.withHost_crcVal (h : List HostAct) : (s.withHost h).crcVal = s.crcVal := rfl
@[simp] theorem State.withHost_ir (h : List HostAct) : (s.withHost h).ir = s.ir := rfl
@[simp] theorem State.withHost_status (h : List HostAct) : (s.withHost h).status = s.status := rfl
@[simp] theorem State.withHost_phase (h : List HostAct) : (s.withHost h).phase = s.phase := rfl
@[simp] theorem State.withHost_upc (h : List HostAct) : (s.withHost h).upc = s.upc := rfl
@[simp] theorem State.withHost_held (h : List HostAct) : (s.withHost h).held = s.held := rfl
@[simp] theorem State.withHost_t (h : List HostAct) : (s.withHost h).t = s.t := rfl
@[simp] theorem State.withHost_k (h : List HostAct) : (s.withHost h).k = s.k := rfl
@[simp] theorem State.withHost_causeP (h : List HostAct) : (s.withHost h).causeP = s.causeP := rfl
@[simp] theorem State.withHost_env (h : List HostAct) : (s.withHost h).env = { s.env with host := h } := rfl

end Sys2Proof.Machine
end

