-- ==== Sys2Proof/Laws/Ops.lean ====
section
/-! SUPPORT. Laws of the shared operations: external calls, the phase guard, pure commands, and the operands' layouts. -/

namespace Sys2Proof.Machine

/-! ## External calls -/

theorem external_of_returns {s : State} {k : State → Result} (h : s.NextCallReturns) : external s k = k s.spendCall :=
  if_neg h

theorem external_of_hang {s : State} {k : State → Result} (h : s.env.hangAfter = some 0) : external s k = .next s :=
  if_pos h

theorem external_next {s t : State} {k : State → Result} (h : external s k = .next t) :
    (s.env.hangAfter = some 0 ∧ t = s) ∨ (s.NextCallReturns ∧ k s.spendCall = .next t) := by
  unfold external at h
  split at h
  · cases h
    exact .inl ⟨‹_›, rfl⟩
  · exact .inr ⟨‹_›, h⟩

/-! ## Phases -/

theorem inPhase_next {p : Phase} {s t : State} {k : Result} (h : inPhase p s k = .next t) :
    s.phase = p ∧ k = .next t := by
  unfold inPhase at h
  split at h
  · exact ⟨‹_›, h⟩
  · cases h

theorem pureCommand_next {s t : State} {w : State → State} (h : pureCommand s w = .next t) :
    s.phase = .pure ∧ t = (w s).completeOk := by
  obtain ⟨hp, h⟩ := inPhase_next h
  cases h
  exact ⟨hp, rfl⟩

/-! ## Operands -/

theorem addressByte_write (a : DevAddr) : addressByte a .write = a ++ 0#1 := by
  revert a
  decide +kernel

theorem addressByte_read (a : DevAddr) : addressByte a .read = a ++ 1#1 := by
  revert a
  decide +kernel

theorem packSample_eq (b0 b1 : Byte) : packSample b0 b1 = b0 ++ b1.extractLsb' 2 6 ++ 0#2 := by
  apply BitVec.eq_of_getLsbD_eq
  intro i hi
  unfold packSample
  repeat rw [BitVec.getLsbD_append]
  interval_cases i <;> simp

theorem statusBits_eq (b1 : Byte) : statusBits b1 = b1.extractLsb' 0 2 := by
  revert b1
  decide +kernel

@[simp] theorem firstBytes_three (b : Buf) : b.firstBytes 3 = b := rfl

@[simp] theorem bytes_two (b : Buf) : b.bytes 2 = [b.b0, b.b1] := rfl

end Sys2Proof.Machine
end

