-- ==== Sys2Proof/Laws/Frames.lean ====
section
/-! SUPPORT. Laws of frames: the sequencer's step at each kind of micro-step, and everything one step in a frame can do. -/

namespace Sys2Proof.Machine

theorem microAt_abort (frame : List Micro) : microAt frame abortUpc = some .stopFail := rfl

theorem microAt_of_ne {frame : List Micro} {u : Nat} (h : u ≠ abortUpc) : microAt frame u = frame[u]? := if_neg h

/-! ## The step at each kind of micro-step -/

section
variable {frame : List Micro} {s : State} {onOk : State → State} {onFail : State → Cause → State}

theorem frameStep_start (hm : microAt frame s.upc = some .start) (h : s.NextCallReturns) :
    frameStep frame s onOk onFail = .next (s.spendCall.callStart.advance) := by
  simp [frameStep, hm, external_of_returns h, microEnd, microState]

theorem frameStep_write {b : Byte} {c : Cause} (hm : microAt frame s.upc = some (.write b c)) (h : s.NextCallReturns) :
    frameStep frame s onOk onFail = .next ((s.spendCall.callWrite b).afterWrite s.ackAnswer c) := by
  simp [frameStep, hm, external_of_returns h, microEnd, microState]
  rfl

theorem frameStep_read {i : Nat} (hm : microAt frame s.upc = some (.read i)) (h : s.NextCallReturns) :
    frameStep frame s onOk onFail = .next ((s.spendCall.callRead i).advance) := by
  simp [frameStep, hm, external_of_returns h, microEnd, microState]

theorem frameStep_sendAck (hm : microAt frame s.upc = some .sendAck) (h : s.NextCallReturns) :
    frameStep frame s onOk onFail = .next ((s.spendCall.record .sendAck).advance) := by
  simp [frameStep, hm, external_of_returns h, microEnd, microState]

theorem frameStep_sendNack (hm : microAt frame s.upc = some .sendNack) (h : s.NextCallReturns) :
    frameStep frame s onOk onFail = .next ((s.spendCall.record .sendNack).advance) := by
  simp [frameStep, hm, external_of_returns h, microEnd, microState]

theorem frameStep_stopOk (hm : microAt frame s.upc = some .stopOk) (h : s.NextCallReturns) :
    frameStep frame s onOk onFail = .next (onOk s.spendCall.callStop) := by
  simp [frameStep, hm, external_of_returns h, microEnd, microState]

theorem frameStep_stopFail (hm : microAt frame s.upc = some .stopFail) (h : s.NextCallReturns) :
    frameStep frame s onOk onFail = .next (onFail s.spendCall.callStop s.causeP) := by
  simp [frameStep, hm, external_of_returns h, microEnd, microState]

end

/-- Everything one step in a frame can do. -/
theorem frameStep_next {f : List Micro} {s t : State} {onOk : State → State} {onFail : State → Cause → State}
    (h : frameStep f s onOk onFail = .next t) :
    (s.env.hangAfter = some 0 ∧ t = s) ∨
    (s.NextCallReturns ∧ ∃ m, microAt f s.upc = some m ∧
      ((m ≠ .stopOk ∧ m ≠ .stopFail ∧ t = microState m s.spendCall) ∨
       (m = .stopOk ∧ t = onOk s.spendCall.callStop) ∨
       (m = .stopFail ∧ t = onFail s.spendCall.callStop s.causeP))) := by
  unfold frameStep at h
  split at h
  · cases h
  · rename_i m hm
    rcases external_next h with h' | ⟨hr, h'⟩
    · exact .inl h'
    · refine .inr ⟨hr, m, hm, ?_⟩
      cases m <;> simp [microEnd, microState] at h' <;> simp [microState, h']

/-! ## What a micro-step leaves alone -/

@[simp] theorem microState_d (m : Micro) (s : State) : (microState m s).d = s.d := by
  cases m <;> simp [microState, State.afterWrite]
  split <;> rfl

@[simp] theorem microState_raw (m : Micro) (s : State) : (microState m s).raw = s.raw := by
  cases m <;> simp [microState, State.afterWrite]
  split <;> rfl

@[simp] theorem microState_resultFx (m : Micro) (s : State) : (microState m s).resultFx = s.resultFx := by
  cases m <;> simp [microState, State.afterWrite]
  split <;> rfl

@[simp] theorem microState_resultFp (m : Micro) (s : State) : (microState m s).resultFp = s.resultFp := by
  cases m <;> simp [microState, State.afterWrite]
  split <;> rfl

@[simp] theorem microState_crcVal (m : Micro) (s : State) : (microState m s).crcVal = s.crcVal := by
  cases m <;> simp [microState, State.afterWrite]
  split <;> rfl

@[simp] theorem microState_ir (m : Micro) (s : State) : (microState m s).ir = s.ir := by
  cases m <;> simp [microState, State.afterWrite]
  split <;> rfl

@[simp] theorem microState_status (m : Micro) (s : State) : (microState m s).status = s.status := by
  cases m <;> simp [microState, State.afterWrite]
  split <;> rfl

@[simp] theorem microState_phase (m : Micro) (s : State) : (microState m s).phase = s.phase := by
  cases m <;> simp [microState, State.afterWrite]
  split <;> rfl

@[simp] theorem microState_k (m : Micro) (s : State) : (microState m s).k = s.k := by
  cases m <;> simp [microState, State.afterWrite]
  split <;> rfl

@[simp] theorem microState_host (m : Micro) (s : State) : (microState m s).env.host = s.env.host := by
  cases m <;> simp [microState, State.afterWrite]
  split <;> rfl

@[simp] theorem microState_reads (m : Micro) (s : State) : (microState m s).env.reads = s.env.reads := by
  cases m <;> simp [microState, State.afterWrite]
  split <;> rfl

end Sys2Proof.Machine
end

