-- ==== Sys2Proof/Laws/Exec.lean ====
section
/-! SUPPORT. Everything one sequencer step of a command can do, said once: `exec_effect`. -/

namespace Sys2Proof.Machine

/-- Everything one step of the command `i` can do in the state `s` when it answers a next state. -/
inductive Effect (i : Instr) (s : State) : State → Prop where
  /-- The external call of the step never returns. -/
  | hung : s.env.hangAfter = some 0 → Effect i s s
  /-- A micro-step of the command's own frame, not its last. -/
  | own {m : Micro} : s.NextCallReturns → (s.phase = .prim ∨ s.phase = .trig) → s.phase = startPhase i →
      microAt (firstFrame i) s.upc = some m → m ≠ .stopOk → m ≠ .stopFail → Effect i s (microState m s.spendCall)
  /-- A micro-step of a poll frame, not its last. -/
  | polling {m : Micro} : s.NextCallReturns → s.phase = .poll → startPhase i = .trig →
      microAt (frameRdnr Config.devAddr Config.sampleLen) s.upc = some m → m ≠ .stopOk → m ≠ .stopFail →
      Effect i s (microState m s.spendCall)
  /-- The final `stop()` of a read command of `n` bytes. -/
  | received (n : Nat) : s.NextCallReturns → s.phase = .prim → startPhase i = .prim →
      microAt (firstFrame i) s.upc = some .stopOk →
      ((∃ a r b, i = .rdreg a r b ∧ n = b.toNat) ∨ (∃ a b, i = .rdnr a b ∧ n = b.toNat) ∨ (i = .getur ∧ n = 1)) →
      Effect i s (s.spendCall.callStop.storeRead n).completeOk
  /-- The final `stop()` of a write command. -/
  | sent : s.NextCallReturns → s.phase = .prim → startPhase i = .prim →
      microAt (firstFrame i) s.upc = some .stopOk →
      ((∃ a r d, i = .wrreg a r d) ∨ (∃ a r, i = .wrcmd a r) ∨ (∃ d, i = .setur d) ∨ i = .srst) →
      Effect i s s.spendCall.callStop.completeOk
  /-- The abort of the command's own frame. -/
  | aborted : s.NextCallReturns → (s.phase = .prim ∨ s.phase = .trig) → s.phase = startPhase i →
      microAt (firstFrame i) s.upc = some .stopFail → Effect i s (s.spendCall.callStop.raiseBus s.causeP)
  /-- The final `stop()` of a trigger. -/
  | triggered : s.NextCallReturns → s.phase = .trig → startPhase i = .trig →
      microAt (firstFrame i) s.upc = some .stopOk → Effect i s s.spendCall.callStop.triggered
  /-- The delay before a poll. -/
  | delayed : s.NextCallReturns → s.phase = .delay → startPhase i = .trig → Effect i s s.spendCall.beginPoll
  /-- The final `stop()` of a poll. -/
  | polled : s.NextCallReturns → s.phase = .poll → startPhase i = .trig →
      microAt (frameRdnr Config.devAddr Config.sampleLen) s.upc = some .stopOk →
      Effect i s { s.spendCall.callStop with phase := .fin }
  /-- The abort of a poll. -/
  | pollFailed : s.NextCallReturns → s.phase = .poll → startPhase i = .trig →
      microAt (frameRdnr Config.devAddr Config.sampleLen) s.upc = some .stopFail →
      Effect i s s.spendCall.callStop.pollFailed
  /-- The end of a measurement of `q`. -/
  | finished (q : Quantity) : s.phase = .fin → (i, q) = (.meast, .temperature) ∨ (i, q) = (.meash, .humidity) →
      Effect i s (s.finish q)
  /-- CRC8. -/
  | checked (n : Byte) : s.phase = .pure → i = .crc8 n →
      Effect i s (State.completeOk { s with
        crcVal := crc8 (s.d.bytes n.toNat)
        status := { s.status with crcOk := crc8 (s.d.bytes n.toNat) == s.d.get n.toNat } })
  /-- PACK. -/
  | packed : s.phase = .pure → i = .pack → Effect i s (s.storeSample s.d.b0 s.d.b1).completeOk
  /-- CONVT and CONVH. -/
  | converted (q : Quantity) : s.phase = .pure → (i, q) = (.convt, .temperature) ∨ (i, q) = (.convh, .humidity) →
      Effect i s (s.storeReading q s.raw).completeOk

theorem measurementStep_effect {c q i} {s t : State} (hi : startPhase i = .trig)
   (hf : firstFrame i = frameWrcmd Config.devAddr c)
   (hq : (i, q) = (.meast, .temperature) ∨ (i, q) = (.meash, .humidity))
   (h : measurementStep c q s = .next t) : Effect i s t := by
  unfold measurementStep at h
  split at h
  · rename_i hp
    rcases frameStep_next h with ⟨h, rfl⟩ | ⟨h1, m, hm, (⟨h2, h3, rfl⟩ | ⟨rfl, rfl⟩ | ⟨rfl, rfl⟩)⟩
    · exact .hung h
    · exact .own h1 (.inr hp) (hp.trans hi.symm) (hf ▸ hm) h2 h3
    · exact .triggered h1 hp hi (hf ▸ hm)
    · exact .aborted h1 (.inr hp) (hp.trans hi.symm) (hf ▸ hm)
  · rename_i hp
    rcases external_next h with ⟨h, rfl⟩ | ⟨h1, h2⟩
    · exact .hung h
    · cases h2; exact .delayed h1 hp hi
  · rename_i hp
    rcases frameStep_next h with ⟨h, rfl⟩ | ⟨h1, m, hm, (⟨h2, h3, rfl⟩ | ⟨rfl, rfl⟩ | ⟨rfl, rfl⟩)⟩
    · exact .hung h
    · exact .polling h1 hp hi hm h2 h3
    · exact .polled h1 hp hi hm
    · exact .pollFailed h1 hp hi hm
  · cases h; exact .finished q ‹_› hq
  all_goals cases h

theorem primCommand_effect {f : List Micro} {i} {w : State → State} {s t : State} (hi : startPhase i = .prim)
   (hf : firstFrame i = f)
   (hw : s.NextCallReturns → s.phase = .prim → microAt (firstFrame i) s.upc = some .stopOk →
     Effect i s (w s.spendCall.callStop).completeOk)
   (h : primCommand f s w = .next t) : Effect i s t := by
  obtain ⟨hp, h⟩ := inPhase_next h
  subst hf
  rcases frameStep_next h with ⟨h, rfl⟩ | ⟨h1, m, hm, (⟨h2, h3, rfl⟩ | ⟨rfl, rfl⟩ | ⟨rfl, rfl⟩)⟩
  · exact .hung h
  · exact .own h1 (.inl hp) (hp.trans hi.symm) hm h2 h3
  · exact hw h1 hp hm
  · exact .aborted h1 (.inl hp) (hp.trans hi.symm) hm

theorem exec_effect {i : Instr} {s t : State} (h : exec i s = .next t) : Effect i s t := by
  cases i
  case crc8 n => change execCrc8 n s = _ at h; unfold execCrc8 at h; obtain ⟨hp, rfl⟩ := pureCommand_next h; exact .checked n hp rfl
  case pack => change execPack s = _ at h; unfold execPack at h; obtain ⟨hp, rfl⟩ := pureCommand_next h; exact .packed hp rfl
  case convt => change execConvt s = _ at h; unfold execConvt at h; obtain ⟨hp, rfl⟩ := pureCommand_next h; exact .converted _ hp (.inl rfl)
  case convh => change execConvh s = _ at h; unfold execConvh at h; obtain ⟨hp, rfl⟩ := pureCommand_next h; exact .converted _ hp (.inr rfl)
  case meast => exact measurementStep_effect rfl rfl (.inl rfl) h
  case meash => exact measurementStep_effect rfl rfl (.inr rfl) h
  case rdreg a r n => exact primCommand_effect rfl rfl (fun h1 h2 h3 => .received _ h1 h2 rfl h3 (.inl ⟨_, _, _, rfl, rfl⟩)) h
  case rdnr a n => exact primCommand_effect rfl rfl (fun h1 h2 h3 => .received _ h1 h2 rfl h3 (.inr (.inl ⟨_, _, rfl, rfl⟩))) h
  case getur => exact primCommand_effect rfl rfl (fun h1 h2 h3 => .received _ h1 h2 rfl h3 (.inr (.inr ⟨rfl, rfl⟩))) h
  case wrreg a r d => exact primCommand_effect rfl rfl (fun h1 h2 h3 => .sent h1 h2 rfl h3 (by simp)) h
  case wrcmd a r => exact primCommand_effect rfl rfl (fun h1 h2 h3 => .sent h1 h2 rfl h3 (by simp)) h
  case setur d => exact primCommand_effect rfl rfl (fun h1 h2 h3 => .sent h1 h2 rfl h3 (by simp)) h
  case srst => exact primCommand_effect rfl rfl (fun h1 h2 h3 => .sent h1 h2 rfl h3 (by simp)) h
end Sys2Proof.Machine
end

