-- ==== Sys2Proof/Laws/PerInstr.lean ====
section
/-! SUPPORT. The family FitsRow, one lemma per command: the word of a well-formed command selects a row of the opcode map
and has its shape (30_encoding.md R62). -/

namespace Sys2Proof.Laws.FitsRow

/-- The word of the command, when its operands are legal, selects a row and has the row's shape. -/
def Statement (i : Instr) : Prop :=
  i.wf = true → ∃ row, rowOf (encode i) = some row ∧ encode i &&& row.mask = row.pattern

/-- A word with the fields given has the shape of a row when each field has. -/
theorem shape_wordOfFields {o : Byte} {a : DevAddr} {r m : Byte} {row : OpRow}
    (ho : o &&& opcField row.mask = opcField row.pattern) (hz : z23Field row.pattern = 0)
    (ha : a &&& addrField row.mask = addrField row.pattern) (hr : r &&& regField row.mask = regField row.pattern)
    (hm : m &&& immField row.mask = immField row.pattern) :
    wordOfFields o a r m &&& row.mask = row.pattern := by
  rw [shape_iff]
  simp [*]

/-- The masks of a field that no row constrains. -/
theorem and_zero7 (a : DevAddr) : a &&& 0#7 = 0#7 := BitVec.and_zero
theorem and_zero8 (b : Byte) : b &&& 0#8 = 0#8 := BitVec.and_zero

theorem rdreg (a : DevAddr) (r n : Byte) : Statement (.rdreg a r n) :=
  fun h => ⟨opTable[0], by simp [rowOf, encode, opTable],
    shape_wordOfFields (by decide) (by decide) (and_zero7 _) (and_zero8 _)
      (by simpa [opTable, immField] using ((lenOk_iff_mask n).mp h).1)⟩

theorem rdnr (a : DevAddr) (n : Byte) : Statement (.rdnr a n) :=
  fun h => ⟨opTable[1], by simp [rowOf, encode, opTable],
    shape_wordOfFields (by decide) (by decide) (and_zero7 _) (by decide)
      (by simpa [opTable, immField] using ((lenOk_iff_mask n).mp h).1)⟩

theorem wrreg (a : DevAddr) (r d : Byte) : Statement (.wrreg a r d) :=
  fun _ => ⟨opTable[2], by simp [rowOf, encode, opTable],
    shape_wordOfFields (by decide) (by decide) (and_zero7 _) (and_zero8 _)
      (and_zero8 _)⟩

theorem wrcmd (a : DevAddr) (r : Byte) : Statement (.wrcmd a r) :=
  fun _ => ⟨opTable[3], by simp [rowOf, encode, opTable],
    shape_wordOfFields (by decide) (by decide) (and_zero7 _) (and_zero8 _)
      (by decide)⟩

theorem crc8 (n : Byte) : Statement (.crc8 n) :=
  fun h => ⟨opTable[4], by simp [rowOf, encode, opTable],
    shape_wordOfFields (by decide) (by decide) (by decide) (by decide)
      (by simpa [opTable, immField] using ((countOk_iff_mask n).mp h).1)⟩

theorem pack : Statement .pack :=
  fun _ => ⟨opTable[5], by simp [rowOf, encode, opTable],
    shape_wordOfFields (by decide) (by decide) (by decide) (by decide)
      (by decide)⟩

theorem convt : Statement .convt :=
  fun _ => ⟨opTable[6], by simp [rowOf, encode, opTable],
    shape_wordOfFields (by decide) (by decide) (by decide) (by decide)
      (by decide)⟩

theorem convh : Statement .convh :=
  fun _ => ⟨opTable[7], by simp [rowOf, encode, opTable],
    shape_wordOfFields (by decide) (by decide) (by decide) (by decide)
      (by decide)⟩

theorem meast : Statement .meast :=
  fun _ => ⟨opTable[8], by simp [rowOf, encode, opTable],
    shape_wordOfFields (by decide) (by decide) (by decide) (by decide)
      (by decide)⟩

theorem meash : Statement .meash :=
  fun _ => ⟨opTable[9], by simp [rowOf, encode, opTable],
    shape_wordOfFields (by decide) (by decide) (by decide) (by decide)
      (by decide)⟩

theorem getur : Statement .getur :=
  fun _ => ⟨opTable[10], by simp [rowOf, encode, opTable],
    shape_wordOfFields (by decide) (by decide) (by decide) (by decide)
      (by decide)⟩

theorem setur (d : Byte) : Statement (.setur d) :=
  fun _ => ⟨opTable[11], by simp [rowOf, encode, opTable],
    shape_wordOfFields (by decide) (by decide) (by decide) (by decide)
      (and_zero8 _)⟩

theorem srst : Statement .srst :=
  fun _ => ⟨opTable[12], by simp [rowOf, encode, opTable],
    shape_wordOfFields (by decide) (by decide) (by decide) (by decide)
      (by decide)⟩

end Sys2Proof.Laws.FitsRow
end

