-- ==== Sys2Proof/Laws/Run.lean ====
section
/-! SUPPORT. Laws of runs of the machine: no step, one step more, two runs one after the other. -/

namespace Sys2Proof.Machine

theorem run_zero (s : State) : Host.Core.run core 0 s = .next s := rfl

theorem coreRun_succ {M : Host.Core} {s t : M.State} (k : Nat) (h : M.step s = .next t) :
    Host.Core.run M (k + 1) s = Host.Core.run M k t := by
  simp only [Host.Core.run, h]

theorem run_succ {s t : State} (k : Nat) (h : step s = .next t) :
    Host.Core.run core (k + 1) s = Host.Core.run core k t :=
  coreRun_succ (M := core) k h

theorem coreRun_add {M : Host.Core} {s t : M.State} (m n : Nat) (h : Host.Core.run M m s = .next t) :
    Host.Core.run M (m + n) s = Host.Core.run M n t := by
  induction m generalizing s with
  | zero =>
    cases h
    simp
  | succ m ih =>
    rw [Nat.succ_add]
    simp only [Host.Core.run] at h ⊢
    split at h
    · exact ih h
    · cases h
    · cases h

theorem run_add {s t : State} (m n : Nat) (h : Host.Core.run core m s = .next t) :
    Host.Core.run core (m + n) s = Host.Core.run core n t :=
  coreRun_add (M := core) m n h

end Sys2Proof.Machine
end

