-- ==== Sys2Proof/Machine/Assembly.lean ====
section
/-! DEFINITION. The assembler spelling of commands and the host programs of 30_encoding.md R68 and R69. Nothing of the
step reads it. -/

namespace Sys2Proof.Machine

/-- A number in the `0x` hexadecimal of R68. -/
def hexText (n : Nat) : String := "0x" ++ String.ofList ((Nat.toDigits 16 n).map Char.toUpper)

/-- A command as R68 spells it: mnemonic in capitals, operands separated by commas. -/
def asmText : Instr → String
  | .rdreg a r n => "RDREG " ++ hexText a.toNat ++ ", " ++ hexText r.toNat ++ ", " ++ hexText n.toNat
  | .rdnr a n => "RDNR " ++ hexText a.toNat ++ ", " ++ hexText n.toNat
  | .wrreg a r d => "WRREG " ++ hexText a.toNat ++ ", " ++ hexText r.toNat ++ ", " ++ hexText d.toNat
  | .wrcmd a r => "WRCMD " ++ hexText a.toNat ++ ", " ++ hexText r.toNat
  | .crc8 n => "CRC8 " ++ hexText n.toNat
  | .pack => "PACK"
  | .convt => "CONVT"
  | .convh => "CONVH"
  | .meast => "MEAST"
  | .meash => "MEASH"
  | .getur => "GETUR"
  | .setur d => "SETUR " ++ hexText d.toNat
  | .srst => "SRST"

/-- The name the source's driver surface gives a command (R69). -/
def driverName : Instr → String
  | .rdreg _ _ _ => "Read-with-register"
  | .rdnr _ _ => "Read-without-register"
  | .wrreg _ _ _ => "Write-single-byte"
  | .wrcmd _ _ => "Write-command-only"
  | .crc8 _ => "Integrity Check"
  | .pack => "PACK"
  | .convt => "CONVT"
  | .convh => "CONVH"
  | .meast => "getTemperature"
  | .meash => "getHumidity"
  | .getur => "getUserRegister"
  | .setur _ => "setUserRegister"
  | .srst => "softReset"

/-- One line of a host program (R68, R69). -/
inductive HostLine where
  /-- A command line: write its word to `CMD`, then poll `STATUS` until `DONE`. -/
  | command (i : Instr)
  /-- `LDD v` -/
  | ldd (v : Word)
  /-- `LDRAW v` -/
  | ldraw (v : Word)
  /-- `RD name`, by the offset of the named register. -/
  | rd (off : Nat)
deriving DecidableEq, Repr

/-- The host entries of one line (R68, R69). -/
def HostLine.acts : HostLine → List HostAct
  | .command i => [.write 0x00 4 (encode i), .awaitDone]
  | .ldd v => [.write 0x08 4 v]
  | .ldraw v => [.write 0x0C 4 v]
  | .rd off => [.read off 4]

/-- The host entries of a program. -/
def programActs (lines : List HostLine) : List HostAct := lines.flatMap HostLine.acts

end Sys2Proof.Machine
end

