-- ==== Sys2Proof/Tests/Slice0.lean ====
section
/-! SUPPORT. Tests: ill-formed terms, decoded words, one step per command against the vectors of 95_test_vectors.md, and a
witness for the hypotheses of every statement that has some. -/

namespace Sys2Proof.Tests

open Sys2Proof.Machine

/-! ## Well-formedness (30_encoding.md R62, R63) -/

theorem test_wf_rdreg_len_zero : (Instr.rdreg 0x40 0xE7 0).wf = false := by decide
theorem test_wf_rdreg_len_four : (Instr.rdreg 0x40 0xE7 4).wf = false := by decide
theorem test_wf_rdnr_len_zero : (Instr.rdnr 0x40 0).wf = false := by decide
theorem test_wf_rdnr_len_four : (Instr.rdnr 0x40 4).wf = false := by decide
theorem test_wf_crc8_count_three : (Instr.crc8 3).wf = false := by decide

/-! ## Words written out from the encodings (R60 to R62; part 2 of 95_test_vectors.md) -/

/-- V31 -/
theorem test_decode_rdreg : decodeTableWord 32 0x0140E701 = some (.rdreg 0x40 0xE7 1) := by decide
/-- V122 -/
theorem test_decode_rdreg_edge : decodeTableWord 32 0x017FFF03 = some (.rdreg 0x7F 0xFF 3) := by decide
/-- V34 -/
theorem test_decode_rdnr : decodeTableWord 32 0x02400003 = some (.rdnr 0x40 3) := by decide
/-- V38 -/
theorem test_decode_wrreg : decodeTableWord 32 0x0340E683 = some (.wrreg 0x40 0xE6 0x83) := by decide
/-- V86 -/
theorem test_decode_wrreg_zero : decodeTableWord 32 0x03000000 = some (.wrreg 0 0 0) := by decide
/-- V42 -/
theorem test_decode_wrcmd : decodeTableWord 32 0x0440F300 = some (.wrcmd 0x40 0xF3) := by decide
/-- V1 -/
theorem test_decode_crc8 : decodeTableWord 32 0x10000002 = some (.crc8 2) := by decide
/-- V45 -/
theorem test_decode_pack : decodeTableWord 32 0x11000000 = some (.pack) := by decide
/-- V3 -/
theorem test_decode_convt : decodeTableWord 32 0x12000000 = some (.convt) := by decide
/-- V5 -/
theorem test_decode_convh : decodeTableWord 32 0x13000000 = some (.convh) := by decide
/-- V50 -/
theorem test_decode_meast : decodeTableWord 32 0x20000000 = some (.meast) := by decide
/-- V116 -/
theorem test_decode_meash : decodeTableWord 32 0x21000000 = some (.meash) := by decide
/-- V60 -/
theorem test_decode_getur : decodeTableWord 32 0x30000000 = some (.getur) := by decide
/-- V63 -/
theorem test_decode_setur : decodeTableWord 32 0x31000083 = some (.setur 0x83) := by decide
/-- V64 -/
theorem test_decode_srst : decodeTableWord 32 0x32000000 = some (.srst) := by decide

/-- V100: words with an operand, a reserved bit or an operation code that R65 calls illegal. -/
theorem test_illegal_words :
    [0x00000000, 0x01400000, 0x0140E704, 0x01C0E701, 0x0240E703, 0x02400000, 0x0440F301, 0x03FF0000].all
      (fun w => (decodeTableWord 32 w).isNone) = true ∧
    [0x10000003, 0x10000004, 0x11000001, 0x12000100, 0x13800000, 0x20000001, 0x21400000, 0x30000001].all
      (fun w => (decodeTableWord 32 w).isNone) = true ∧
    [0x31000100, 0x32000001, 0x05000000, 0x14000000, 0x22000000, 0x33000000, 0xFFFFFFFF].all
      (fun w => (decodeTableWord 32 w).isNone) = true := by decide

/-! ## One step of each command -/

/-- The state in which the command `i` runs, in phase `p` at micro-step `u`. -/
def running (i : Instr) (p : Phase) (u : Nat) : State :=
  { State.reset.accept (encode i) i with phase := p, upc := u, held := u != 0 }

/-- Whether the result is a next state with the property. -/
def answers (r : Result) (p : State → Bool) : Bool :=
  match r with
  | .next t => p t
  | .fault _ | .refused _ => false

/-- The data of a read: `T`. -/
def withT (s : State) (b0 b1 b2 : Byte) : State := { s with t := ⟨b0, b1, b2⟩ }

/-- The data buffer `D`. -/
def withD (s : State) (b0 b1 b2 : Byte) : State := { s with d := ⟨b0, b1, b2⟩ }

/-- The answers of the next `writeByte` calls. -/
def withAcks (s : State) (as : List Ack) : State := { s with env := { s.env with acks := as } }

/-- The host's queue. -/
def withActs (s : State) (h : List HostAct) : State := { s with env := { s.env with host := h } }

/-- V84 -/
theorem test_rdreg_final_stop :
    answers (exec (.rdreg 0x40 0xE7 2) (withT (running (.rdreg 0x40 0xE7 2) .prim 9) 0x3A 0x5C 0x77))
      (fun t => t.d.word == 0x00005C3A && t.status.word == 0x00008002 && t.held == false) := by decide

/-- V33 -/
theorem test_rdreg_abort :
    answers (exec (.rdreg 0x40 0xE7 1) { running (.rdreg 0x40 0xE7 1) .prim 12 with causeP := .nackAddrR })
      (fun t => t.status.word == 0x0000008E && t.env.calls == [Call.stop]) := by decide

/-- V34 -/
theorem test_rdnr_final_stop :
    answers (exec (.rdnr 0x40 3) (withT (running (.rdnr 0x40 3) .prim 8) 0x65 0xFC 0xDD))
      (fun t => t.d.word == 0x00DDFC65 && t.status.word == 0x0000C002) := by decide

/-- V36: the address byte of device 0x7F with the read bit. -/
theorem test_rdnr_address_byte :
    answers (exec (.rdnr 0x7F 2) (withAcks (running (.rdnr 0x7F 2) .prim 1) [.ack]))
      (fun t => t.env.calls == [Call.writeByte 0xFF .ack] && t.upc == 2) := by decide

/-- V87: the address byte of device 0x7F with the write bit. -/
theorem test_wrreg_address_byte :
    answers (exec (.wrreg 0x7F 0xFF 0xFF) (withAcks (running (.wrreg 0x7F 0xFF 0xFF) .prim 1) [.ack]))
      (fun t => t.env.calls == [Call.writeByte 0xFE .ack] && t.upc == 2) := by decide

/-- V41: the data byte is the one refused; the abort comes next with cause 3. -/
theorem test_wrreg_data_refused :
    answers (exec (.wrreg 0x40 0xE6 0x83) (withAcks (running (.wrreg 0x40 0xE6 0x83) .prim 3) [.nack]))
      (fun t => t.env.calls == [Call.writeByte 0x83 .nack] && t.upc == 12 && t.causeP.code == 3 && t.status.busy) := by decide

/-- V42 -/
theorem test_wrcmd_final_stop :
    answers (exec (.wrcmd 0x40 0xF3) (running (.wrcmd 0x40 0xF3) .prim 3))
      (fun t => t.status.word == 0x00000002 && t.env.calls == [Call.stop] && t.held == false) := by decide

/-- V44: cause 2. -/
theorem test_wrcmd_command_refused :
    answers (exec (.wrcmd 0x40 0xF3) (withAcks (running (.wrcmd 0x40 0xF3) .prim 2) [.nack]))
      (fun t => t.env.calls == [Call.writeByte 0xF3 .nack] && t.upc == 12 && t.causeP.code == 2) := by decide

/-- V1 -/
theorem test_crc8_match :
    answers (exec (.crc8 2) (withD (running (.crc8 2) .pure 0) 0x65 0xFC 0xDD))
      (fun t => t.crcVal == 0xDD && t.status.word == 0x00000102) := by decide +kernel

/-- V73: a mismatch is no failure. -/
theorem test_crc8_mismatch :
    answers (exec (.crc8 1) (withD (running (.crc8 1) .pure 0) 0x65 0xFC 0xDD))
      (fun t => t.crcVal == 0x4E && t.status.word == 0x00000002) := by decide +kernel

/-- V46 -/
theorem test_pack :
    answers (exec .pack (withD (running .pack .pure 0) 0x7C 0x82 0x97))
      (fun t => t.raw == 0x7C80 && t.status.word == 0x00002002) := by decide

/-- V47 -/
theorem test_pack_mask :
    answers (exec .pack (withD (running .pack .pure 0) 0xFF 0xFF 0x00))
      (fun t => t.raw == 0xFFFC && t.status.word == 0x00003002) := by decide

/-- V101 -/
theorem test_convt_negative :
    answers (exec .convt { running .convt .pure 0 with raw := 0x4441 })
      (fun t => t.resultFx == 0xFFFFFDA4 && t.resultFp == 0xB8C147AE && t.status.word == 0x00000202) := by decide +kernel

/-- V4 -/
theorem test_convt_largest :
    answers (exec .convt { running .convt .pure 0 with raw := 0xFFFF })
      (fun t => t.resultFx == 0x3256BB5C && t.resultFp == 0x4300DE09) := by decide +kernel

/-- V97 -/
theorem test_convh_small :
    answers (exec .convh { running .convh .pure 0 with raw := 0x0C4A })
      (fun t => t.resultFx == 0x00000022 && t.resultFp == 0x3A080000 && t.status.word == 0x00000602) := by decide +kernel

/-- V5 -/
theorem test_convh_zero :
    answers (exec .convh { running .convh .pure 0 with raw := 0 })
      (fun t => t.resultFx == 0xFFFA0000 && t.resultFp == 0xC0C00000) := by decide +kernel

/-- V50: the last step. -/
theorem test_meast_fin :
    answers (exec .meast { withT (running .meast .fin 8) 0x65 0xFC 0xDD with k := 1 })
      (fun t => t.status.word == 0x0001C302 && t.d.word == 0x00DDFC65 && t.raw == 0x65FC &&
        t.resultFx == 0x090B4570 && t.resultFp == 0x41B938C1 && t.crcVal == 0xDD) := by decide +kernel

/-- V55: the checksum is over the bytes as received. -/
theorem test_meast_mismatch :
    answers (exec .meast { withT (running .meast .fin 8) 0x65 0xFE 0xDD with k := 4 })
      (fun t => t.status.word == 0x000400D6 && t.d.word == 0 && t.raw == 0 && t.resultFx == 0) := by decide +kernel

/-- V116: the last step. -/
theorem test_meash_fin :
    answers (exec .meash { withT (running .meash .fin 8) 0x7C 0x82 0x97 with k := 1 })
      (fun t => t.status.word == 0x0001E702 && t.raw == 0x7C80 && t.resultFx == 0x0036CA80 &&
        t.resultFp == 0x425B2A00 && t.crcVal == 0x97) := by decide +kernel

/-- V56: the abort of the 85th attempt. -/
theorem test_meash_exhausted :
    answers (exec .meash { running .meash .poll 12 with k := 85 }) (fun t => t.status.word == 0x005500B6) := by decide

/-- V60 -/
theorem test_getur_final_stop :
    answers (exec .getur (withT (running .getur .prim 7) 0x02 0x11 0x22))
      (fun t => t.d.word == 0x00000002 && t.status.word == 0x00004002) := by decide

/-- V63: the third byte of the frame. -/
theorem test_setur_data_byte :
    answers (exec (.setur 0x83) (withAcks (running (.setur 0x83) .prim 3) [.ack]))
      (fun t => t.env.calls == [Call.writeByte 0x83 .ack] && t.upc == 4) := by decide

/-- V68 -/
theorem test_setur_abort :
    answers (exec (.setur 0x83) { running (.setur 0x83) .prim 12 with causeP := .nackData })
      (fun t => t.status.word == 0x0000006E) := by decide

/-- V64: the block itself is not reset. -/
theorem test_srst_final_stop :
    answers (exec .srst (withD (running .srst .prim 3) 0x11 0x22 0x33))
      (fun t => t.status.word == 0x00000002 && t.d.word == 0x00332211) := by decide

/-- V70 -/
theorem test_srst_abort :
    answers (exec .srst { running .srst .prim 12 with causeP := .nackReg })
      (fun t => t.status.word == 0x0000004E) := by decide

/-! ## The host's side -/

/-- V100 and V123: a refused word clears earlier results. -/
theorem test_host_refused_word :
    answers (step (withActs { withD State.reset 1 2 3 with raw := 7, resultFx := 9, status := { Status.reset with rvalid := true } }
      [.write 0 4 0x00000000]))
      (fun t => t.status.word == 0x000000FE && t.d.word == 0 && t.raw == 0 && t.resultFx == 0 && t.env.calls == []) := by decide

/-- V114 -/
theorem test_host_write_dbuf :
    answers (step (withActs State.reset [.write 0x08 4 0xAB123456])) (fun t => windowReg t 0x08 == 0x00123456) := by decide

/-- V113 -/
theorem test_host_write_raw :
    answers (step (withActs State.reset [.write 0x0C 4 0xABCD65FC])) (fun t => windowReg t 0x0C == 0x000065FC) := by decide

/-- V125 -/
theorem test_host_write_status_ignored :
    answers (step (withActs State.reset [.write 0x04 4 0xFFFFFFFF])) (fun t => windowReg t 0x04 == 0) := by decide

/-- The placing of a word: the next step is the first step of its command (log entry 14). -/
theorem test_placed_word_runs_first :
    step (State.reset.withFetchWord 32 0x0340E683) =
      exec (.wrreg 0x40 0xE6 0x83) (State.reset.accept 0x0340E683 (.wrreg 0x40 0xE6 0x83)) := rfl

/-- 30_encoding.md R68: the spelling and the host entries of a command line. -/
theorem test_command_line :
    asmText (.wrreg 0x40 0xE6 0x83) = "WRREG 0x40, 0xE6, 0x83" ∧
      programActs [.command (.wrreg 0x40 0xE6 0x83), .rd 0x04] = [.write 0 4 0x0340E683, .awaitDone, .read 4 4] := by decide +kernel

/-! ## Witnesses: every statement's hypotheses can be met -/

/-- A state of the invariant with nothing running. -/
theorem inv_idle (h : List HostAct) : (withActs State.reset h).Inv := by
  constructor <;> simp [withActs, State.reset, Status.reset, Config.pollMax]

/-- A state of the invariant with a command running. -/
theorem inv_busy (e : Env) : State.Inv { running (.wrreg 0x40 0xE6 0x83) .prim 0 with env := e } where
  idle := by simp [running]
  running := fun _ =>
    ⟨.wrreg 0x40 0xE6 0x83, (by decide : decode (encode (.wrreg 0x40 0xE6 0x83)) = .ok (.wrreg 0x40 0xE6 0x83)), rfl,
      .inr ⟨(by decide : 0 < 5), (by decide : 0 < 12), by simp [running]⟩⟩
  cleared := by simp [running]
  success := by simp [running]
  failure := by simp [running]
  pollcnt := (by decide : (0 : BitVec 7) ≤ 85)
  attempts := (by decide : (0 : BitVec 7) ≤ 85)
  upc := by simp [running]
  noReading := by simp [running, State.reset, Status.reset]

theorem witness_ResetEventOnlyWhileIdle :
    (withActs State.reset [.reset]).env.host = .reset :: [] ∧ (withActs State.reset [.reset]).status.busy = false ∧
    (withActs (running .pack .pure 0) [.reset]).env.host = .reset :: [] ∧
    (withActs (running .pack .pure 0) [.reset]).status.busy = true :=
  ⟨rfl, rfl, rfl, rfl⟩

theorem witness_HostReadReturnsRegister :
    let s := withActs State.reset [.read 0x1C 4]
    (0x1C, (0 : Word)) ∈ [(0x00, s.ir), (0x04, s.status.word), (0x08, 0#8 ++ s.d.b2 ++ s.d.b1 ++ s.d.b0),
      (0x0C, s.raw.setWidth 32), (0x10, s.resultFx), (0x14, s.resultFp), (0x18, s.crcVal.setWidth 32),
      (0x1C, (0 : Word))] ∧ s.env.host = .read 0x1C 4 :: [] :=
  ⟨by decide, rfl⟩

theorem witness_HostWriteWhileIdle :
    (withActs State.reset [.write 0x00 4 0x32000000]).status.busy = false ∧ decode 0x32000000 = .ok .srst ∧
    decode 0 = .error .unknownOpcode ∧ (withActs State.reset [.write 0x08 4 1]).env.host = .write 0x08 4 1 :: [] ∧
    (withActs State.reset [.write 0x0C 4 1]).env.host = .write 0x0C 4 1 :: [] ∧ 0x04 ∈ [0x04, 0x10, 0x14, 0x18, 0x1C] ∧
    0x1C ∈ [0x04, 0x10, 0x14, 0x18, 0x1C] :=
  by decide

theorem witness_HostAccessWhileBusy :
    let s := withActs (running (.wrreg 0x40 0xE6 0x83) .prim 0) [.write 0x1C 4 7]
    s.Inv ∧ s.status.busy = true ∧ 0x1C % 4 = 0 ∧ 0x1C ≤ 0x1C ∧ s.env.host = .write 0x1C 4 7 :: [] :=
  ⟨inv_busy _, rfl, rfl, le_rfl, rfl⟩

theorem witness_MalformedHostAccessRefused :
    (withActs State.reset [.read 0x1C 4]).env.host = .read 0x1C 4 :: [] ∧ (0x1C % 4 = 0 ∧ 0x1C ≤ 0x1C) ∧
    (withActs State.reset [.write 0x20 4 0]).env.host = .write 0x20 4 0 :: [] ∧ ¬ (0x20 ≤ 0x1C) ∧ ¬ (0x1D % 4 = 0) :=
  by decide

theorem witness_CommandAcceptance :
    let s := withActs State.reset [.write 0x00 4 0x20000000]
    s.status.busy = false ∧ s.env.host = .write 0x00 4 0x20000000 :: [] ∧ decode 0x20000000 = .ok .meast ∧
      decode 0x21400000 = .error .nonZeroBits :=
  by decide

theorem witness_RefusalOfIllegalWord :
    (withActs State.reset [.write 0x00 4 0x01400000]).status.busy = false ∧ (∀ i, decode 0x01400000 ≠ .ok i) ∧
    (withActs State.reset [.write 0x00 4 0x01400000]).env.host = .write 0x00 4 0x01400000 :: [] :=
  ⟨rfl,
    (fun _ h => by cases (by decide : decode 0x01400000 = .error .lengthZero).symm.trans h), rfl⟩

theorem witness_StepRunsDecodedCommand :
    let s := withActs (running .pack .pure 0) [.pause]
    blockTurnState s = some (running .pack .pure 0) ∧ s.status.busy = true ∧ decode s.ir = .ok .pack ∧
    blockTurnState (withActs (running .pack .pure 0) [.awaitDone]) = some (withActs (running .pack .pure 0) [.awaitDone]) :=
  ⟨rfl, rfl, by decide, rfl⟩

theorem witness_PlacedWordRunsNext :
    decodeTableWord 32 0x02400003 = some (.rdnr 0x40 3) :=
  by decide

theorem witness_DecodeFollowsOpcodeMap :
    ((0x017FFF03 : Word) &&& 0xFF8000FC = 0x01000000 ∧ (0x017FFF03 : Word).extractLsb' 0 8 ≠ 0) ∧
    ((0x027F0001 : Word) &&& 0xFF80FFFC = 0x02000000 ∧ (0x027F0001 : Word).extractLsb' 0 8 ≠ 0) ∧
    (0x037FFFFF : Word) &&& 0xFF800000 = 0x03000000 ∧ (0x047FFF00 : Word) &&& 0xFF8000FF = 0x04000000 ∧
    ((0x10000002 : Word) &&& 0xFFFFFFFC = 0x10000000 ∧ (0x10000002 : Word).extractLsb' 0 8 ≠ 3) ∧
    (0x310000FF : Word) &&& 0xFFFFFF00 = 0x31000000 :=
  by decide

theorem witness_DecodeFollowsOpcodeMap_illegal :
    let w : Word := 0x10000003
    ¬ (w &&& 0xFF8000FC = 0x01000000) ∧ ¬ (w &&& 0xFF80FFFC = 0x02000000) ∧ w &&& 0xFF800000 ≠ 0x03000000 ∧
    w &&& 0xFF8000FF ≠ 0x04000000 ∧ ¬ (w &&& 0xFFFFFFFC = 0x10000000 ∧ w.extractLsb' 0 8 ≠ 3) ∧ w ≠ 0x11000000 ∧
    w ≠ 0x12000000 ∧ w ≠ 0x13000000 ∧ w ≠ 0x20000000 ∧ w ≠ 0x21000000 ∧ w ≠ 0x30000000 ∧
    w &&& 0xFFFFFF00 ≠ 0x31000000 ∧ w ≠ 0x32000000 :=
  by decide

theorem witness_DecodeOfEncode :
    (Instr.rdreg 0x7F 0xFF 3).wf = true ∧ (Instr.crc8 2).wf = true ∧ Instr.meast.wf = true :=
  by decide

theorem witness_EncodeOfDecode :
    decode 0x017FFF03 = .ok (.rdreg 0x7F 0xFF 3) :=
  by decide

theorem witness_Crc8Completes :
    countOk 0 = true ∧ countOk 2 = true ∧ (running (.crc8 2) .pure 0).phase = .pure :=
  by decide

theorem witness_PackCompletes :
    (running .pack .pure 0).phase = .pure :=
  rfl

theorem witness_ConversionsComplete :
    (running .convt .pure 0).phase = .pure :=
  rfl

theorem witness_MicroStepEffects :
    (∀ u, (running .meast .poll u).NextCallReturns) ∧
    microAt (frameRdreg 0x40 0xE7 3) 0 = some .start ∧ microAt (frameRdreg 0x40 0xE7 3) 2 = some (.write 0xE7 .nackReg) ∧
    microAt (frameRdreg 0x40 0xE7 3) 5 = some (.read 0) ∧ microAt (frameRdreg 0x40 0xE7 3) 9 = some (.read 2) ∧
    microAt (frameRdreg 0x40 0xE7 3) 6 = some .sendAck ∧ microAt (frameRdreg 0x40 0xE7 3) 10 = some .sendNack ∧
    (withAcks (running .pack .prim 2) [.ack]).env.acks = .ack :: [] ∧
    (withAcks (running .pack .prim 2) [.nack]).env.acks = .nack :: [] ∧
    { (running .pack .prim 2).env with bytes := [0x3A] }.bytes = 0x3A :: [] :=
  ⟨fun _ => by simp [State.NextCallReturns, running, State.reset, Env.reset], by decide, by decide, by decide, by decide,
    by decide, by decide, rfl, rfl, rfl⟩

theorem witness_UnscriptedAnswersAreFree :
    let s := running (.rdreg 0x40 0xE7 3) .prim 2
    s.NextCallReturns ∧ microAt (frameRdreg 0x40 0xE7 3) s.upc = some (.write 0xE7 .nackReg) ∧ s.env.acks = [] ∧
    microAt (frameRdreg 0x40 0xE7 3) (running (.rdreg 0x40 0xE7 3) .prim 9).upc = some (.read 2) ∧ s.env.bytes = [] :=
  by decide

theorem witness_ReadFrameTables :
    (1 ≤ 1 ∧ 1 ≤ 3 ∧ 0 < 1) ∧ (1 ≤ 3 ∧ 3 ≤ 3 ∧ 2 < 3) :=
  by decide

theorem witness_ReadCommandsComplete :
    lenOk 1 = true ∧ lenOk 3 = true ∧ (running (.rdreg 0x40 0xE7 3) .prim 11).phase = .prim ∧
    (running (.rdreg 0x40 0xE7 3) .prim 11).NextCallReturns ∧ (running (.rdreg 0x40 0xE7 3) .prim 11).upc = 5 + 2 * 3 ∧
    (running (.rdnr 0x40 1) .prim 4).upc = 2 + 2 * 1 ∧ (running .getur .prim 7).upc = 7 :=
  by decide

theorem witness_WriteCommandsComplete :
    (running (.wrreg 0x40 0xE6 0x83) .prim 4).phase = .prim ∧ (running (.wrreg 0x40 0xE6 0x83) .prim 4).NextCallReturns ∧
    (running (.wrreg 0x40 0xE6 0x83) .prim 4).upc = 4 ∧ (running .srst .prim 3).upc = 3 :=
  by decide

theorem witness_AbortStepRaisesBusError :
    startPhase .meast ≠ .pure ∧ (running .meast .trig 12).phase = startPhase .meast ∧ (running .meast .trig 12).upc = 12 ∧
    (running .meast .trig 12).NextCallReturns ∧ (running .srst .prim 12).phase = startPhase .srst :=
  by decide

theorem witness_RunningStepWritesNoVisibleRegister :
    ∃ t, (running (.wrcmd 0x40 0xF3) .prim 0).status.busy = true ∧
      exec (.wrcmd 0x40 0xF3) (running (.wrcmd 0x40 0xF3) .prim 0) = .next t ∧ t.status.busy = true :=
  ⟨_, rfl, rfl, rfl⟩

theorem witness_SuccessfulCompletionFrame :
    ∃ t, (running (.wrcmd 0x40 0xF3) .prim 3).status.busy = true ∧
      exec (.wrcmd 0x40 0xF3) (running (.wrcmd 0x40 0xF3) .prim 3) = .next t ∧ t.status.busy = false ∧
      t.status.fail = false :=
  ⟨_, rfl, rfl, rfl, rfl⟩

theorem witness_FailingCompletionClearsEveryOutput :
    ∃ t, (running (.wrcmd 0x40 0xF3) .prim 12).status.busy = true ∧ (running (.wrcmd 0x40 0xF3) .prim 12).status.fail = false ∧
      exec (.wrcmd 0x40 0xF3) (running (.wrcmd 0x40 0xF3) .prim 12) = .next t ∧ t.status.fail = true :=
  ⟨_, rfl, rfl, rfl, rfl⟩

theorem witness_MeasurementPhaseChanges :
    (running .meash .trig 3).NextCallReturns ∧ (running .meash .trig 3).phase = .trig ∧ (running .meash .trig 3).upc = 3 ∧
    (running .meash .delay 0).phase = .delay ∧ (running .meash .poll 8).phase = .poll ∧ (running .meash .poll 8).upc = 8 ∧
    (running .meash .poll 12).upc = 12 ∧ ({ running .meash .poll 12 with k := 84 } : State).k < 85 ∧
    85 ≤ ({ running .meash .poll 12 with k := 85 } : State).k :=
  by decide

theorem witness_MeasurementCompletes :
    (withT (running .meast .fin 8) 0x65 0xFC 0xDD).phase = .fin ∧ crc8 [0x65, 0xFC] = 0xDD :=
  by decide +kernel

theorem witness_ChecksumMismatchRaisesDataError :
    (withT (running .meast .fin 8) 0x65 0xFC 0xDC).phase = .fin ∧ crc8 [0x65, 0xFC] ≠ 0xDC :=
  by decide +kernel

theorem witness_ReadingComesFromValidatedSample :
    ∃ t, (withT (running .meash .fin 8) 0 0 0).status.busy = true ∧
      exec .meash (withT (running .meash .fin 8) 0 0 0) = .next t ∧ t.status.busy = false ∧ t.status.rvalid = true :=
  ⟨_, rfl, rfl, by decide +kernel, by decide +kernel⟩

theorem witness_StepKeepsInvariant :
    ∃ s t : State, s.Inv ∧ s.status.busy = true ∧ step s = .next t :=
  ⟨_, _, inv_busy Env.reset, rfl, rfl⟩

theorem witness_ReachableStatesSatisfyR34 :
    ∃ s : State, Reachable s ∧ s.status.busy = true :=
  ⟨_, .step (.reset { Env.reset with host := [.write 0x00 4 0x32000000] }) rfl, by decide⟩

theorem witness_StepStopsOnlyOnUndefinedHostAction :
    (withActs State.reset [.read 1 4]).Inv ∧ State.Inv { running (.wrreg 0x40 0xE6 0x83) .prim 0 with env := Env.reset } :=
  ⟨inv_idle _, inv_busy _⟩

theorem witness_StepMakesAtMostOneCall :
    ∃ s t : State, s.Inv ∧ step s = .next t ∧ t.env.calls = [Call.start] ∧ t.held = true :=
  ⟨_, _, inv_busy Env.reset, rfl, rfl, rfl⟩

theorem witness_CommandWordIsLatchedWhileBusy :
    ∃ t, (withActs (running .pack .pure 0) [.write 0 4 5]).status.busy = true ∧
      step (withActs (running .pack .pure 0) [.write 0 4 5]) = .next t ∧ t.env.host = [] :=
  ⟨_, rfl, rfl, rfl⟩

theorem witness_NoCommandReadsStatus :
    ∃ t, exec (.wrcmd 0x40 0xF3) (running (.wrcmd 0x40 0xF3) .prim 3) = .next t :=
  ⟨_, rfl⟩

theorem witness_HungCallNeverCompletes :
    let s : State := { running (.wrreg 0x40 0xE6 0x83) .prim 0 with env := { Env.reset with hangAfter := some 0 } }
    s.Inv ∧ s.status.busy = true ∧ s.phase ≠ .fin ∧ s.phase ≠ .pure ∧ s.env.hangAfter = some 0 ∧ s.env.host = [] :=
  ⟨inv_busy _, rfl, by decide, by decide, rfl, rfl⟩

theorem witness_IdleStateIsFinal :
    State.reset.status.busy = false ∧ State.reset.env.host = [] :=
  ⟨rfl, rfl⟩

theorem witness_ReadCommandsRunToSuccess :
    lenOk 1 = true ∧ lenOk 3 = true ∧ [0x65, 0xFC, (0xDD : Byte)].length = (3 : Byte).toNat ∧ State.reset.env.host = [] ∧
    State.reset.AllCallsReturn ∧
    { State.reset.env with bytes := [0x65, 0xFC, 0xDD] }.bytes = [0x65, 0xFC, 0xDD] ++ [] ∧
    (withAcks State.reset [.ack, .ack, .ack]).env.acks = .ack :: .ack :: .ack :: [] ∧
    (withAcks State.reset [.ack]).env.acks = .ack :: [] :=
  by decide

theorem witness_WriteCommandsRunToSuccess :
    State.reset.env.host = [] ∧ State.reset.AllCallsReturn ∧
    (withAcks State.reset [.ack, .ack, .ack]).env.acks = .ack :: .ack :: .ack :: [] :=
  by decide

theorem witness_RefusedByteEndsCommandInBusError :
    lenOk 3 = true ∧ (withAcks State.reset [.nack]).env.host = [] ∧ (withAcks State.reset [.nack]).AllCallsReturn ∧
    (withAcks State.reset [.nack]).env.acks = .nack :: [] ∧
    (withAcks State.reset [.ack, .nack]).env.acks = .ack :: .nack :: [] ∧
    (withAcks State.reset [.ack, .ack, .nack]).env.acks = .ack :: .ack :: .nack :: [] :=
  by decide

theorem witness_MeasurementSucceedsAtAttempt :
    let s (n : Nat) : State :=
      { State.reset with env := { Env.reset with acks := .ack :: .ack :: (List.replicate (n - 1) .nack ++ [Ack.ack]),
                                                 bytes := [0x65, 0xFC, 0xDD] } }
    (1 ≤ 1 ∧ 1 ≤ 85 ∧ 85 ≤ 85) ∧ (s 85).env.host = [] ∧ (s 85).AllCallsReturn ∧
    (s 1).env.acks = .ack :: .ack :: (List.replicate (1 - 1) .nack ++ Ack.ack :: []) ∧
    (s 85).env.acks = .ack :: .ack :: (List.replicate (85 - 1) .nack ++ Ack.ack :: []) ∧
    (s 85).env.bytes = 0x65 :: 0xFC :: 0xDD :: [] ∧ crc8 [0x65, 0xFC] = 0xDD :=
  ⟨by decide, rfl, rfl, rfl, rfl, rfl, by decide +kernel⟩

theorem witness_MeasurementExhaustsAfter85Polls :
    let s := withAcks State.reset (.ack :: .ack :: (List.replicate 85 .nack ++ []))
    s.env.host = [] ∧ s.AllCallsReturn ∧ s.env.acks = .ack :: .ack :: (List.replicate 85 .nack ++ []) :=
  ⟨rfl, rfl, rfl⟩

theorem witness_TriggerFailureEndsMeasurement :
    (withAcks State.reset [.nack]).env.acks = .nack :: [] ∧
    (withAcks State.reset [.ack, .nack]).env.acks = .ack :: .nack :: [] ∧ State.reset.env.host = [] ∧
    State.reset.AllCallsReturn :=
  by decide

theorem witness_EveryCommandEndsWithin351Steps :
    let s : State := { running (.wrreg 0x40 0xE6 0x83) .prim 0 with env := Env.reset }
    s.Inv ∧ s.env.host = [] ∧ s.AllCallsReturn ∧ s.status.busy = true :=
  ⟨inv_busy _, rfl, rfl, rfl⟩

theorem witness_Crc8IsLinear :
    [(0x65 : Byte), 0xFC].length = [(0x00 : Byte), 0x01].length :=
  rfl

theorem witness_Crc8DetectsSingleBitFlips :
    0 < 8 ∧ 7 < 8 :=
  by decide

theorem witness_TemperatureFixedPointIsExact :
    (17472 : Sample).toNat < (17473 : Sample).toNat :=
  by decide

theorem witness_HumidityFixedPointIsExact :
    (3145 : Sample).toNat < (3146 : Sample).toNat :=
  by decide

theorem witness_Binary32RoundsToNearestEven :
    0 < 307036160 ∧ 0 < 6553600 :=
  by decide

theorem witness_HumidityExactTemperatureIncreasing :
    (0 : Sample).toNat < (65535 : Sample).toNat :=
  by decide

end Sys2Proof.Tests
end

section
/-! PROOFS. The family of 10_state.md: what the invariant of the reachable states needs of the frames and of every step,
the frames of running and completing steps, the step by the host's queue, and that no command reads `STATUS`. -/

namespace Sys2Proof

/-- The rows of RDREG, RDNR and CRC8 demand `IMM[7:2] = 0` (30_encoding.md R62). -/
theorem immField_of_counted : ∀ row ∈ opTable, row.op = .rdreg ∨ row.op = .rdnr ∨ row.op = .crc8 →
    immField row.mask = 0xFC ∧ immField row.pattern = 0 := by
  decide

/-- A legal word gives its command operands in the ranges of 30_encoding.md R62 and R63. -/
theorem decode_wf {w : Word} {i : Instr} (h : decode w = .ok i) : i.wf = true := by
  obtain ⟨row, hrow, hshape, halso, rfl⟩ := decode_eq_ok h
  obtain ⟨-, -, -, -, himm⟩ := (shape_iff _ _ _).mp hshape
  have hcounted := immField_of_counted row (rowOf_mem hrow).1
  cases hop : row.op with
  | rdreg | rdnr =>
    obtain ⟨hmask, hpattern⟩ := hcounted (by simp [hop])
    exact (lenOk_iff_mask _).mpr ⟨by simpa [hmask, hpattern] using himm, by simpa [alsoCheck, hop] using halso⟩
  | crc8 =>
    obtain ⟨hmask, hpattern⟩ := hcounted (by simp [hop])
    exact (countOk_iff_mask _).mpr ⟨by simpa [hmask, hpattern] using himm, by simpa [alsoCheck, hop] using halso⟩
  | _ => rfl

end Sys2Proof

namespace Sys2Proof.Machine

/-! ## The shape of the frames -/

/-- A micro-step that can stand between the first START of a frame and its final `stop()`. -/
def Micro.Middle : Micro → Prop
  | .write _ c => c ≠ .none
  | .stopOk | .stopFail => False
  | .start | .read _ | .sendAck | .sendNack => True

/-- What keeps the sequencer at a micro-step of the frame (10_state.md R24): it begins with START, ends below the abort
step with the only final `stop()`, and each of its writes has a cause for its refusal. -/
structure WellShaped (f : List Micro) : Prop where
  first   : f[0]? = some .start
  fits    : f.length ≤ abortUpc
  goesOn  : ∀ {u m}, f[u]? = some m → m ≠ .stopOk → u + 1 < f.length
  causes  : ∀ {b c}, Micro.write b c ∈ f → c ≠ .none
  noAbort : Micro.stopFail ∉ f

theorem wellShaped_of_middle {mid : List Micro} (hlen : mid.length ≤ 10) (hmid : ∀ m ∈ mid, m.Middle) :
    WellShaped (.start :: (mid ++ [.stopOk])) where
  first := rfl
  fits := by simp [abortUpc]; omega
  goesOn {u m} hu hm := by
    obtain ⟨hlt, rfl⟩ := List.getElem?_eq_some_iff.mp hu
    by_contra hge
    obtain rfl : u = mid.length + 1 := by simp at hlt hge; omega
    simp at hm
  causes {b c} h := hmid (.write b c) (by simpa using h)
  noAbort h := hmid .stopFail (by simpa using h)

theorem readLoop_length (i n : Nat) : (readLoop i n).length = 2 * n := by
  induction n generalizing i with
  | zero => rfl
  | succ n ih => simp [readLoop, ih]; omega

theorem readLoop_middle {i n : Nat} : ∀ m ∈ readLoop i n, m.Middle := by
  induction n generalizing i with
  | zero => simp [readLoop]
  | succ n ih =>
    intro m hm
    simp only [readLoop, List.mem_cons] at hm
    rcases hm with rfl | rfl | hm
    · trivial
    · split <;> trivial
    · exact ih m hm

theorem frameRdreg_wellShaped (a : DevAddr) (r : Byte) {n : Nat} (hn : n ≤ 3) : WellShaped (frameRdreg a r n) := by
  refine wellShaped_of_middle
    (mid := .write _ .nackAddrW :: .write _ .nackReg :: .start :: .write _ .nackAddrR :: readLoop 0 n) ?_ ?_
  · simp [readLoop_length]; omega
  · simpa [Micro.Middle] using readLoop_middle

theorem frameRdnr_wellShaped (a : DevAddr) {n : Nat} (hn : n ≤ 3) : WellShaped (frameRdnr a n) := by
  refine wellShaped_of_middle (mid := .write _ .nackAddrR :: readLoop 0 n) ?_ ?_
  · simp [readLoop_length]; omega
  · simpa [Micro.Middle] using readLoop_middle

theorem frameWrreg_wellShaped (a : DevAddr) (r d : Byte) : WellShaped (frameWrreg a r d) :=
  wellShaped_of_middle (mid := [.write _ .nackAddrW, .write _ .nackReg, .write _ .nackData]) (by simp)
    (by simp [Micro.Middle])

theorem frameWrcmd_wellShaped (a : DevAddr) (r : Byte) : WellShaped (frameWrcmd a r) :=
  wellShaped_of_middle (mid := [.write _ .nackAddrW, .write _ .nackReg]) (by simp) (by simp [Micro.Middle])

theorem pollFrame_wellShaped : WellShaped (frameRdnr Config.devAddr Config.sampleLen) :=
  frameRdnr_wellShaped _ le_rfl

theorem lenOk_le {n : Byte} (h : lenOk n = true) : n.toNat ≤ 3 := by
  rcases (lenOk_iff n).mp h with rfl | rfl | rfl <;> decide

theorem firstFrame_wellShaped {i : Instr} (hi : i.wf = true) (hp : startPhase i ≠ .pure) :
    WellShaped (firstFrame i) := by
  cases i with
  | rdreg a r n => exact frameRdreg_wellShaped a r (lenOk_le hi)
  | rdnr a n => exact frameRdnr_wellShaped a (lenOk_le hi)
  | getur => exact frameRdreg_wellShaped _ _ (by decide)
  | wrreg | setur => exact frameWrreg_wellShaped ..
  | wrcmd | meast | meash | srst => exact frameWrcmd_wellShaped ..
  | crc8 | pack | convt | convh => exact absurd rfl hp

/-! ## The sequencer inside a frame -/

section
variable {f : List Micro} {s : State} {m : Micro}

theorem InFrame.upc_le (h : InFrame f s) : s.upc ≤ abortUpc := by
  rcases h with ⟨hu, -⟩ | ⟨-, hu, -⟩
  · exact hu.le
  · exact hu.le

theorem InFrame.microAt_isSome (h : InFrame f s) : ∃ m, microAt f s.upc = some m := by
  rcases h with ⟨hu, -⟩ | ⟨hl, hu, -⟩
  · exact ⟨_, by rw [hu, microAt_abort]⟩
  · exact ⟨_, by rw [microAt_of_ne hu.ne, List.getElem?_eq_getElem hl]⟩

theorem InFrame.at_start (hf : WellShaped f) (hu : s.upc = 0) (hh : s.held = false) : InFrame f s := by
  have hpos : 0 < f.length := (List.getElem?_eq_some_iff.mp hf.first).1
  exact .inr ⟨by rwa [hu], by simp [hu, abortUpc], by simp [hu, hh]⟩

/-- The abort step is reached only with a cause recorded. -/
theorem InFrame.causeP_ne_none (hf : WellShaped f) (h : InFrame f s) (hm : microAt f s.upc = some .stopFail) :
    s.causeP ≠ .none := by
  rcases h with ⟨-, -, hc⟩ | ⟨-, hu, -⟩
  · exact hc
  · rw [microAt_of_ne hu.ne] at hm
    exact absurd (List.mem_of_getElem? hm) hf.noAbort

/-- A micro-step that is not the last leaves the sequencer at a micro-step of the same frame. -/
theorem InFrame.microState (hf : WellShaped f) (h : InFrame f s) (hm : microAt f s.upc = some m)
    (hok : m ≠ .stopOk) (hfail : m ≠ .stopFail) : InFrame f (microState m s) := by
  rcases h with ⟨hu, -⟩ | ⟨-, hu, hheld⟩
  · rw [hu, microAt_abort] at hm
    exact absurd (Option.some.inj hm).symm hfail
  rw [microAt_of_ne hu.ne] at hm
  have hnext : s.upc + 1 < f.length := hf.goesOn hm hok
  have hlt : s.upc + 1 < abortUpc := hnext.trans_le hf.fits
  have hstays (hs : m ≠ .start) : s.held = true :=
    hheld.mpr fun h0 => hs (Option.some.inj (hm.symm.trans (h0 ▸ hf.first)))
  cases m with
  | start => exact .inr ⟨hnext, hlt, by simp [Machine.microState]⟩
  | write b c =>
    have hc : c ≠ .none := hf.causes (List.mem_of_getElem? hm)
    cases ha : s.ackAnswer with
    | ack => exact .inr (by simp [Machine.microState, State.afterWrite, ha, hnext, hlt, hstays])
    | nack => exact .inl (by simp [Machine.microState, State.afterWrite, ha, hc, hstays])
  | read | sendAck | sendNack => exact .inr (by simp [Machine.microState, hnext, hlt, hstays])
  | stopOk => exact absurd rfl hok
  | stopFail => exact absurd rfl hfail

end

/-! ## Positions, phase by phase -/

section
variable {i : Instr} {s : State}

theorem position_own (hp : s.phase = .prim ∨ s.phase = .trig) :
    Position i s ↔ startPhase i = s.phase ∧ InFrame (firstFrame i) s := by
  rcases hp with hp | hp <;> simp [Position, hp]

theorem position_delay (hp : s.phase = .delay) :
    Position i s ↔ startPhase i = .trig ∧ s.held = false ∧ s.k < Config.pollMax := by
  simp [Position, hp]

theorem position_poll (hp : s.phase = .poll) :
    Position i s ↔
      startPhase i = .trig ∧ InFrame (frameRdnr Config.devAddr Config.sampleLen) s ∧ 0 < s.k := by
  simp [Position, hp]

theorem position_fin (hp : s.phase = .fin) :
    Position i s ↔ startPhase i = .trig ∧ s.held = false ∧ 0 < s.k := by
  simp [Position, hp]

theorem position_pure (hp : s.phase = .pure) : Position i s ↔ startPhase i = .pure ∧ s.held = false := by
  simp [Position, hp]

theorem Position.phase_ne_idle (h : Position i s) : s.phase ≠ .idle := by
  intro hp
  simp [Position, hp] at h

/-- Acceptance puts the sequencer at the first step of the command, when the bus is stopped. -/
theorem position_accept {w : Word} (hw : i.wf = true) (hh : s.held = false) : Position i (s.accept w i) := by
  have hframe (hp : startPhase i ≠ .pure) : InFrame (firstFrame i) (s.accept w i) :=
    .at_start (firstFrame_wellShaped hw hp) rfl hh
  cases hp : startPhase i with
  | prim => exact (position_own (.inl hp)).mpr ⟨rfl, hframe (by simp [hp])⟩
  | trig => exact (position_own (.inr hp)).mpr ⟨rfl, hframe (by simp [hp])⟩
  | pure => exact (position_pure hp).mpr ⟨hp, hh⟩
  | idle | delay | poll | fin => cases i <;> cases hp

end

/-! ## Ends of a poll and of a measurement -/

/-- A failed poll is tried again, or it was the 85th (43_measurement.md R128). -/
theorem State.pollFailed_cases (s : State) :
    (s.k < Config.pollMax ∧ s.pollFailed = { s with phase := .delay }) ∨
    (¬ s.k < Config.pollMax ∧ s.pollFailed = s.raise .dataError .pollExhausted Config.pollMax) := by
  unfold State.pollFailed
  split
  · exact .inl ⟨‹_›, rfl⟩
  · exact .inr ⟨‹_›, rfl⟩

/-- A measurement ends with its reading, or with a checksum that does not match (R129). -/
theorem State.finish_cases (s : State) (q : Quantity) :
    (crc8 (s.t.bytes 2) = s.t.b2 ∧ s.finish q = (s.storeMeasurement q).completeOk) ∨
    (crc8 (s.t.bytes 2) ≠ s.t.b2 ∧ s.finish q = s.raise .dataError .crcMismatch s.k) := by
  unfold State.finish
  split
  · exact .inl ⟨‹_›, rfl⟩
  · exact .inr ⟨‹_›, rfl⟩

section
variable (s : State) (q : Quantity)

@[simp] theorem State.storeMeasurement_ir : (s.storeMeasurement q).ir = s.ir := rfl
@[simp] theorem State.storeMeasurement_held : (s.storeMeasurement q).held = s.held := rfl
@[simp] theorem State.storeMeasurement_env : (s.storeMeasurement q).env = s.env := rfl
@[simp] theorem State.storeMeasurement_status :
    (s.storeMeasurement q).status = { s.status with
      crcOk := true, rvalid := true, rkind := q, sbits := statusBits s.t.b1
      rxcnt := BitVec.ofNat 2 Config.sampleLen, pollcnt := s.k } := rfl

end

/-! ## Ways to establish the invariant -/

section
variable {s t : State} {i : Instr}

theorem zero_le_pollMax : (0 : BitVec 7) ≤ Config.pollMax := by decide

theorem zero_lt_pollMax : (0 : BitVec 7) < Config.pollMax := by decide

/-- Below `POLL_MAX` attempts, one more is neither 0 nor too many. -/
theorem attempt_in_range {k : BitVec 7} (hk : k < Config.pollMax) : 0 < k + 1 ∧ k + 1 ≤ Config.pollMax := by
  unfold Config.pollMax at *
  constructor <;> bv_omega

theorem inv_reset (e : Env) : State.Inv { State.reset with env := e } := by
  constructor <;> simp [State.reset, Status.reset, Config.pollMax]

namespace State.Inv

/-- The invariant speaks neither of the two registers a host may write nor of the surroundings. -/
theorem withData (h : s.Inv) (d : Buf) (raw : Sample) (e : Env) : State.Inv { s with d := d, raw := raw, env := e } :=
  ⟨h.idle, h.running, h.cleared, h.success, h.failure, h.pollcnt, h.attempts, h.upc, h.noReading⟩

theorem withEnv (h : s.Inv) (e : Env) : State.Inv { s with env := e } := h.withData s.d s.raw e

theorem withHost (h : s.Inv) (q : List HostAct) : (s.withHost q).Inv := h.withEnv _

theorem position (h : s.Inv) (hb : s.status.busy = true) (hd : decode s.ir = .ok i) : Position i s := by
  obtain ⟨j, hj, hpos⟩ := h.running hb
  obtain rfl : i = j := Except.ok.inj (hd.symm.trans hj)
  exact hpos

/-- A step that does not complete the command keeps the invariant when it keeps the sequencer in place. -/
theorem goesOn (h : s.Inv) (hb : s.status.busy = true) (hd : decode s.ir = .ok i)
    (hk : t.k ≤ Config.pollMax) (hu : t.upc ≤ abortUpc) (hpos : Position i t)
    (hir : t.ir = s.ir := by simp) (hst : t.status = s.status := by simp)
    (hfx : t.resultFx = s.resultFx := by simp) (hfp : t.resultFp = s.resultFp := by simp) : t.Inv where
  idle hi := by simp [hst, hb] at hi
  running _ := ⟨i, hir ▸ hd, hpos⟩
  cleared := by simpa [hst] using h.cleared
  success := by simpa [hst] using h.success
  failure := by simpa [hst] using h.failure
  pollcnt := by simpa [hst] using h.pollcnt
  attempts := hk
  upc := hu
  noReading := by simpa [hst, hfx, hfp] using h.noReading

theorem completeOk (hh : s.held = false) (hp : s.status.pollcnt ≤ Config.pollMax) (hk : s.k ≤ Config.pollMax)
    (hu : s.upc ≤ abortUpc)
    (hr : s.status.rvalid = false → s.resultFx = 0 ∧ s.resultFp = 0 ∧ s.status.rkind = .temperature) :
    s.completeOk.Inv := by
  constructor <;> simp [hh, hp, hk, hu]
  exact hr

theorem raise {e : ErrKind} {c : Cause} {p : BitVec 7} (he : e ≠ .none) (hc : c ≠ .none)
    (hp : p ≤ Config.pollMax) (hh : s.held = false) (hk : s.k ≤ Config.pollMax) (hu : s.upc ≤ abortUpc) :
    (s.raise e c p).Inv := by
  constructor <;> simp [he, hc, hp, hh, hk, hu]

theorem raiseBus {c : Cause} (hc : c ≠ .none) (hh : s.held = false) (hk : s.k ≤ Config.pollMax)
    (hu : s.upc ≤ abortUpc) : (s.raiseBus c).Inv :=
  .raise (by simp) hc zero_le_pollMax hh hk hu

/-! ## The host's side -/

theorem accept {w : Word} (h : s.Inv) (hb : s.status.busy = false) (hd : decode w = .ok i) :
    (s.accept w i).Inv where
  idle := by simp
  running _ := ⟨i, hd, position_accept (decode_wf hd) (h.idle hb).2⟩
  cleared _ := by simp
  success := by simp
  failure := by simp
  pollcnt := zero_le_pollMax
  attempts := zero_le_pollMax
  upc := by simp
  noReading := h.noReading

theorem refuseWord (h : s.Inv) (hb : s.status.busy = false) (w : Word) : (s.refuseWord w).Inv :=
  .raise (by simp) (by simp) zero_le_pollMax (h.idle hb).2 h.attempts h.upc

theorem writeCommand (h : s.Inv) (hb : s.status.busy = false) (w : Word) : (s.writeCommand w).Inv := by
  unfold State.writeCommand
  split
  · exact h.accept hb ‹_›
  · exact h.refuseWord hb w

theorem writeIdle (h : s.Inv) (hb : s.status.busy = false) (off : Nat) (v : Word) : (s.writeIdle off v).Inv := by
  unfold State.writeIdle
  split_ifs
  · exact h.writeCommand hb v
  · exact h.withData (Buf.ofWord v) s.raw s.env
  · exact h.withData s.d (v.setWidth 16) s.env
  · exact h

/-! ## The block's side -/

theorem finish (h : s.Inv) (hh : s.held = false) (q : Quantity) : (s.finish q).Inv := by
  rcases s.finish_cases q with ⟨-, hs⟩ | ⟨-, hs⟩ <;> rw [hs]
  · exact .completeOk hh h.attempts h.attempts h.upc (by simp)
  · exact .raise (by simp) (by simp) h.attempts hh h.attempts h.upc

end State.Inv

end

/-! ## What one step of the whole machine can do -/

/-- Everything one step can do in the state `s` when it answers a next state. -/
inductive StepEffect (s : State) : State → Prop where
  /-- The block stands still: a write it ignores, a turn in which it has no step, the end of the host's wait. -/
  | still (h : List HostAct) : StepEffect s (s.withHost h)
  /-- A host read. -/
  | read (h : List HostAct) (off : Nat) :
      StepEffect s { s with env := { s.env with host := h, reads := s.env.reads ++ [(off, windowReg s off)] } }
  /-- A sequencer step of the command in `IR`. -/
  | ran {i : Instr} {t : State} (h : List HostAct) : s.status.busy = true → decode s.ir = .ok i →
      Effect i (s.withHost h) t → StepEffect s t
  /-- A host write while `BUSY = 0`. -/
  | wrote (h : List HostAct) (off : Nat) (v : Word) : s.status.busy = false →
      StepEffect s ((s.withHost h).writeIdle off v)
  /-- The reset event while `BUSY = 0`. -/
  | wasReset (h : List HostAct) : s.status.busy = false →
      StepEffect s { State.reset with env := (s.withHost h).env }

section
variable {s t : State}

theorem blockTurn_effect {h : List HostAct} (ht : blockTurn (s.withHost h) = .next t) : StepEffect s t := by
  unfold blockTurn at ht
  split at ht
  · split at ht
    · exact .ran h ‹_› ‹_› (exec_effect ht)
    · cases ht
  · cases ht
    exact .still _

theorem hostRead_effect {h : List HostAct} {off width : Nat} (ht : hostRead (s.withHost h) off width = .next t) :
    StepEffect s t := by
  unfold hostRead at ht
  split at ht
  · cases ht
    exact .read h off
  · cases ht

theorem hostWrite_effect {h : List HostAct} {off width : Nat} {v : Word}
    (ht : hostWrite (s.withHost h) off width v = .next t) : StepEffect s t := by
  unfold hostWrite at ht
  split at ht
  · cases hb : s.status.busy <;> simp [hb] at ht <;> subst ht
    · exact .wrote h off v hb
    · exact .still _
  · cases ht

theorem hostReset_effect {h : List HostAct} (ht : hostReset (s.withHost h) = .next t) : StepEffect s t := by
  unfold hostReset at ht
  split at ht
  · cases ht
  · rename_i hb
    cases ht
    exact .wasReset h (by simpa using hb)

theorem step_effect (ht : step s = .next t) : StepEffect s t := by
  unfold step systemTurn at ht
  split at ht
  · exact blockTurn_effect (h := s.env.host) ht
  · exact blockTurn_effect ht
  · split at ht
    · cases ht
      exact .still _
    · exact blockTurn_effect (h := s.env.host) ht
  · exact hostRead_effect ht
  · exact hostWrite_effect ht
  · exact hostReset_effect ht

end

/-! ## Every step keeps the invariant -/

section
variable {i : Instr} {s t : State}

/-- A micro-step keeps the invariant, where its frame is the one the command is in. -/
theorem State.Inv.microState {f : List Micro} {m : Micro} (h : s.Inv) (hb : s.status.busy = true)
    (hd : decode s.ir = .ok i) (hf : WellShaped f) (hin : InFrame f s) (hm : microAt f s.upc = some m)
    (hok : m ≠ .stopOk) (hfail : m ≠ .stopFail)
    (hpos : InFrame f (Machine.microState m s.spendCall) → Position i (Machine.microState m s.spendCall)) :
    (Machine.microState m s.spendCall).Inv :=
  have hin' : InFrame f (Machine.microState m s.spendCall) := InFrame.microState (s := s.spendCall) hf hin hm hok hfail
  h.goesOn hb hd (by simpa using h.attempts) hin'.upc_le (hpos hin')

/-- Every step of the running command keeps the invariant. -/
theorem Effect.keeps_inv (h : s.Inv) (hb : s.status.busy = true) (hd : decode s.ir = .ok i) (he : Effect i s t) :
    t.Inv := by
  have hpos : Position i s := h.position hb hd
  have hheld (hp : s.phase = .fin ∨ s.phase = .pure) : s.held = false := by
    rcases hp with hp | hp
    · obtain ⟨-, hh, -⟩ := (position_fin hp).mp hpos
      exact hh
    · obtain ⟨-, hh⟩ := (position_pure hp).mp hpos
      exact hh
  have hown (hp : s.phase = .prim ∨ s.phase = .trig) : InFrame (firstFrame i) s ∧ WellShaped (firstFrame i) := by
    obtain ⟨hi, hin⟩ := (position_own hp).mp hpos
    exact ⟨hin, firstFrame_wellShaped (decode_wf hd) (by rcases hp with hp | hp <;> simp [hi, hp])⟩
  cases he with
  | hung => exact h
  | own _ hp hi hm hok hfail =>
    obtain ⟨hin, hf⟩ := hown hp
    exact h.microState hb hd hf hin hm hok hfail fun hin' =>
      (position_own (by simpa using hp)).mpr ⟨by simp [hi], hin'⟩
  | polling _ hp hi hm hok hfail =>
    obtain ⟨-, hin, hk⟩ := (position_poll hp).mp hpos
    exact h.microState hb hd pollFrame_wellShaped hin hm hok hfail fun hin' =>
      (position_poll (by simpa using hp)).mpr ⟨hi, hin', by simpa using hk⟩
  | received | sent =>
    exact .completeOk (by simp) (by simpa using h.pollcnt) (by simpa using h.attempts) (by simpa using h.upc)
      (by simpa using h.noReading)
  | aborted _ hp _ hm =>
    obtain ⟨hin, hf⟩ := hown hp
    exact .raiseBus (hin.causeP_ne_none hf hm) rfl h.attempts h.upc
  | triggered _ hp hi =>
    exact h.goesOn hb hd (by simpa using zero_le_pollMax) (by simpa using h.upc)
      ((position_delay rfl).mpr ⟨hi, by simp, by simpa using zero_lt_pollMax⟩)
  | delayed _ hp hi =>
    obtain ⟨-, hh, hk⟩ := (position_delay hp).mp hpos
    obtain ⟨hone, hle⟩ := attempt_in_range hk
    exact h.goesOn hb hd (by simpa using hle) (by simp)
      ((position_poll rfl).mpr ⟨hi, .at_start pollFrame_wellShaped rfl hh, by simpa using hone⟩)
  | polled _ hp hi =>
    obtain ⟨-, -, hk⟩ := (position_poll hp).mp hpos
    exact h.goesOn hb hd (by simpa using h.attempts) (by simpa using h.upc)
      ((position_fin rfl).mpr ⟨hi, by simp, by simpa using hk⟩)
  | pollFailed _ hp hi =>
    rcases s.spendCall.callStop.pollFailed_cases with ⟨hk, ht⟩ | ⟨-, ht⟩ <;> rw [ht]
    · exact h.goesOn hb hd (by simpa using h.attempts) (by simpa using h.upc)
        ((position_delay rfl).mpr ⟨hi, by simp, by simpa using hk⟩)
    · exact .raise (by simp) (by simp) (BitVec.le_refl _) rfl h.attempts h.upc
  | finished q hp => exact h.finish (hheld (.inl hp)) q
  | checked _ hp | packed hp => exact .completeOk (hheld (.inr hp)) h.pollcnt h.attempts h.upc h.noReading
  | converted _ hp => exact .completeOk (hheld (.inr hp)) h.pollcnt h.attempts h.upc (by simp)

/-- Every step of the whole machine keeps the invariant. -/
theorem StepEffect.keeps_inv (h : s.Inv) (he : StepEffect s t) : t.Inv := by
  cases he with
  | still q => exact h.withHost q
  | read => exact h.withEnv _
  | ran q hb hd he => exact he.keeps_inv (h.withHost q) hb hd
  | wrote q off v hb => exact (h.withHost q).writeIdle hb off v
  | wasReset => exact inv_reset _

end

section
variable {i : Instr} {s t : State}

/-! ## The frame of a step that goes on -/

/-- A step after which the command still runs writes no register the host can see. -/
theorem Effect.frame_of_busy (he : Effect i s t) (hb : t.status.busy = true) :
    t.d = s.d ∧ t.raw = s.raw ∧ t.resultFx = s.resultFx ∧ t.resultFp = s.resultFp ∧ t.crcVal = s.crcVal ∧
    t.ir = s.ir ∧ t.status = s.status ∧ t.env.host = s.env.host ∧ t.env.reads = s.env.reads := by
  cases he with
  | hung | own | polling | triggered | delayed | polled => simp
  | pollFailed =>
    rcases s.spendCall.callStop.pollFailed_cases with ⟨-, ht⟩ | ⟨-, ht⟩ <;> rw [ht] at hb ⊢
    · simp
    · simp at hb
  | finished q =>
    rcases s.finish_cases q with ⟨-, ht⟩ | ⟨-, ht⟩ <;> simp [ht] at hb
  | received | sent | aborted | checked | packed | converted => simp at hb

/-! ## The frame of a successful completion -/

/-! ## `IR` -/

theorem Effect.ir (he : Effect i s t) : t.ir = s.ir := by
  cases he with
  | pollFailed => rcases s.spendCall.callStop.pollFailed_cases with ⟨-, ht⟩ | ⟨-, ht⟩ <;> simp [ht]
  | finished q => rcases s.finish_cases q with ⟨-, ht⟩ | ⟨-, ht⟩ <;> simp [ht]
  | _ => simp

/-! ## Calls and `HELD` -/

theorem microState_call (m : Micro) (s : State) :
    ∃ c, (microState m s).env.calls = s.env.calls ++ [c] ∧ (microState m s).held = heldAfter s.held [c] := by
  cases m with
  | write b c =>
    refine ⟨.writeByte b s.ackAnswer, ?_⟩
    cases ha : s.ackAnswer <;> simp [microState, State.afterWrite, ha, heldAfter]
  | read => exact ⟨.readByte s.byteAnswer, by simp [microState], by simp [microState, heldAfter]⟩
  | start => exact ⟨.start, rfl, rfl⟩
  | stopOk | stopFail => exact ⟨.stop, rfl, rfl⟩
  | sendAck => exact ⟨.sendAck, rfl, rfl⟩
  | sendNack => exact ⟨.sendNack, rfl, rfl⟩

/-- The history of calls is extended by at most one call, and `HELD` is what that call makes it. -/
def AtMostOneCall (s t : State) : Prop :=
  ∃ l, l.length ≤ 1 ∧ t.env.calls = s.env.calls ++ l ∧ t.held = heldAfter s.held l

theorem AtMostOneCall.zero (hc : t.env.calls = s.env.calls) (hh : t.held = s.held) : AtMostOneCall s t :=
  ⟨[], by simp, by simpa using hc, hh⟩

theorem AtMostOneCall.one (c : Call) (hc : t.env.calls = s.env.calls ++ [c]) (hh : t.held = heldAfter s.held [c]) :
    AtMostOneCall s t :=
  ⟨[c], le_rfl, hc, hh⟩

theorem Effect.atMostOneCall (he : Effect i s t) : AtMostOneCall s t := by
  cases he with
  | hung => exact .zero rfl rfl
  | @own m | @polling m =>
    obtain ⟨c, hc, hh⟩ := microState_call m s.spendCall
    exact .one c hc hh
  | received | sent | aborted | triggered | polled => exact .one .stop rfl rfl
  | delayed => exact .one .delay rfl rfl
  | pollFailed =>
    rcases s.spendCall.callStop.pollFailed_cases with ⟨-, ht⟩ | ⟨-, ht⟩ <;> rw [ht] <;> exact .one .stop rfl rfl
  | finished q => rcases s.finish_cases q with ⟨-, ht⟩ | ⟨-, ht⟩ <;> exact .zero (by simp [ht]) (by simp [ht])
  | checked | packed | converted => exact .zero rfl rfl

/-- A host write while `BUSY = 0` makes no call. -/
theorem State.writeIdle_keeps (s : State) (off : Nat) (v : Word) :
    (s.writeIdle off v).env = s.env ∧ (s.writeIdle off v).held = s.held := by
  unfold State.writeIdle State.writeCommand
  split_ifs
  · split <;> exact ⟨rfl, rfl⟩
  all_goals exact ⟨rfl, rfl⟩

/-! ## Reachable states -/

theorem Reachable.inv (h : Reachable s) : s.Inv := by
  induction h with
  | reset e => exact inv_reset e
  | step _ hs ih => exact (step_effect hs).keeps_inv ih

theorem ErrKind.code_eq_zero {e : ErrKind} : e.code = 0 ↔ e = .none := by cases e <;> decide

theorem Cause.code_eq_zero {c : Cause} : c.code = 0 ↔ c = .none := by cases c <;> decide

theorem Quantity.code_eq_zero {q : Quantity} : q.code = 0 ↔ q = .temperature := by cases q <;> decide

theorem State.Inv.busy_iff (h : s.Inv) : s.status.busy = true ↔ s.phase ≠ .idle := by
  constructor
  · intro hb
    obtain ⟨i, -, hpos⟩ := h.running hb
    exact hpos.phase_ne_idle
  · intro hp
    by_contra hb
    exact hp (h.idle (by simpa using hb)).1

end

/-! ## The step, by the oldest entry of the host's queue -/

section
variable {s t : State} {i : Instr} {q : List HostAct} {off width : Nat} {v w : Word}

theorem step_of_empty (h : s.env.host = []) : step s = blockTurn s := by
  simp [step, systemTurn, h]

theorem step_of_pause (h : s.env.host = .pause :: q) : step s = blockTurn (s.withHost q) := by
  simp [step, systemTurn, h]

theorem step_of_awaitDone (h : s.env.host = .awaitDone :: q) :
    step s = if s.status.done then .next (s.withHost q) else blockTurn s := by
  simp [step, systemTurn, h]

theorem step_of_read (h : s.env.host = .read off width :: q) : step s = hostRead (s.withHost q) off width := by
  simp [step, systemTurn, h]

theorem step_of_write (h : s.env.host = .write off width v :: q) : step s = hostWrite (s.withHost q) off width v := by
  simp [step, systemTurn, h]

theorem step_of_reset (h : s.env.host = .reset :: q) : step s = hostReset (s.withHost q) := by
  simp [step, systemTurn, h]

theorem accessOk_iff : accessOk off width = true ↔ width = 4 ∧ off % 4 = 0 ∧ off ≤ 0x1C := by
  simp [accessOk, and_assoc]

theorem hostWrite_command (hb : s.status.busy = false) : hostWrite s 0x00 4 w = .next (s.writeCommand w) := by
  simp [hostWrite, accessOk, hb, State.writeIdle]

theorem writeCommand_legal (hd : decode w = .ok i) : s.writeCommand w = s.accept w i := by
  simp [State.writeCommand, hd]

theorem writeCommand_illegal {e : DecodeError} (hd : decode w = .error e) : s.writeCommand w = s.refuseWord w := by
  simp [State.writeCommand, hd]

theorem blockTurn_of_busy (hb : s.status.busy = true) (hd : decode s.ir = .ok i) : blockTurn s = exec i s := by
  simp [blockTurn, hb, hd]

theorem blockTurn_of_idle (hb : s.status.busy = false) : blockTurn s = .next s := by
  simp [blockTurn, hb]

/-- The block takes its turn in the same state, less a `pause` of the host's queue. -/
theorem step_of_blockTurnState (h : blockTurnState s = some t) : step s = blockTurn t ∧ ∃ q, t = s.withHost q := by
  unfold blockTurnState at h
  split at h
  · cases h
    exact ⟨step_of_empty ‹_›, s.env.host, rfl⟩
  · cases h
    exact ⟨step_of_pause ‹_›, _, rfl⟩
  · split at h
    · cases h
    · cases h
      rename_i hq hd
      exact ⟨by simp [step_of_awaitDone hq, hd], s.env.host, rfl⟩
  all_goals cases h

theorem step_of_turn (h : blockTurnState s = some t) (hb : s.status.busy = true) (hd : decode s.ir = .ok i) :
    step s = exec i t := by
  obtain ⟨hs, q, rfl⟩ := step_of_blockTurnState h
  exact hs.trans (blockTurn_of_busy hb hd)

theorem blockTurnState_yielding (s : State) : blockTurnState s.yielding = some s := by
  unfold State.yielding
  split
  · simp [blockTurnState, *]
  · rfl

theorem yielding_block (s : State) : s.yielding.status = s.status ∧ s.yielding.ir = s.ir := by
  unfold State.yielding
  split <;> exact ⟨rfl, rfl⟩

theorem decode_of_decodeTableWord {n w : Nat} (h : decodeTableWord n w = some i) :
    decode (wordOfTableBits n w) = .ok i := by
  unfold decodeTableWord at h
  cases hd : decode (wordOfTableBits n w) with
  | ok j => simpa [hd, Except.toOption] using h
  | error e => simp [hd, Except.toOption] at h

theorem loadWord_legal (hd : decode w = .ok i) : s.loadWord w = (s.accept w i).yielding := by
  simp [State.loadWord, hd]

/-! ## A step is answered -/

theorem external_progress {k : State → Result} (hk : ∃ t, k s.spendCall = .next t) :
    ∃ t, external s k = .next t := by
  by_cases hr : s.NextCallReturns
  · rwa [external_of_returns hr]
  · exact ⟨s, external_of_hang (by simpa using hr)⟩

theorem InFrame.frameStep_progress {f : List Micro} (hin : InFrame f s) (onOk : State → State)
    (onFail : State → Cause → State) : ∃ t, frameStep f s onOk onFail = .next t := by
  obtain ⟨m, hm⟩ := hin.microAt_isSome
  simp only [frameStep, hm]
  apply external_progress
  cases m <;> exact ⟨_, rfl⟩

theorem Position.primCommand_progress (hpos : Position i s) (hi : startPhase i = .prim) (w : State → State) :
    ∃ t, primCommand (firstFrame i) s w = .next t := by
  cases hp : s.phase with
  | prim =>
    obtain ⟨-, hin⟩ := (position_own (.inl hp)).mp hpos
    simpa [primCommand, inPhase, hp] using hin.frameStep_progress _ _
  | _ => simp [Position, hp, hi] at hpos

theorem Position.measurementStep_progress {c : Byte} (hpos : Position i s) (hi : startPhase i = .trig)
    (hf : firstFrame i = frameWrcmd Config.devAddr c) (q : Quantity) : ∃ t, measurementStep c q s = .next t := by
  unfold measurementStep
  cases hp : s.phase with
  | trig =>
    obtain ⟨-, hin⟩ := (position_own (.inr hp)).mp hpos
    exact (hf ▸ hin).frameStep_progress _ _
  | delay => exact external_progress ⟨_, rfl⟩
  | poll =>
    obtain ⟨-, hin, -⟩ := (position_poll hp).mp hpos
    exact hin.frameStep_progress _ _
  | fin => exact ⟨_, rfl⟩
  | idle | prim | pure => simp [Position, hp, hi] at hpos

theorem Position.pureCommand_progress (hpos : Position i s) (hi : startPhase i = .pure) (w : State → State) :
    ∃ t, pureCommand s w = .next t := by
  cases hp : s.phase with
  | pure => exact ⟨_, if_pos hp⟩
  | _ => simp [Position, hp, hi] at hpos

theorem Position.exec_progress (hpos : Position i s) : ∃ t, exec i s = .next t := by
  cases i with
  | rdreg | rdnr | wrreg | wrcmd | getur | setur | srst => exact hpos.primCommand_progress rfl _
  | meast | meash => exact hpos.measurementStep_progress rfl rfl _
  | crc8 | pack | convt | convh => exact hpos.pureCommand_progress rfl fun _ => _

theorem State.Inv.blockTurn_progress (h : s.Inv) : ∃ t, blockTurn s = .next t := by
  cases hb : s.status.busy with
  | false => exact ⟨s, blockTurn_of_idle hb⟩
  | true =>
    obtain ⟨i, hd, hpos⟩ := h.running hb
    rw [blockTurn_of_busy hb hd]
    exact hpos.exec_progress

theorem hostRead_progress (s : State) (off width : Nat) :
    (∃ t, hostRead s off width = .next t) ∨
    (hostRead s off width = .refused .hostAccessUndefined ∧ ¬ (width = 4 ∧ off % 4 = 0 ∧ off ≤ 0x1C)) := by
  rw [← accessOk_iff]
  by_cases ha : accessOk off width = true
  · exact .inl ⟨_, if_pos ha⟩
  · exact .inr ⟨if_neg ha, ha⟩

theorem hostWrite_progress (s : State) (off width : Nat) (v : Word) :
    (∃ t, hostWrite s off width v = .next t) ∨
    (hostWrite s off width v = .refused .hostAccessUndefined ∧ ¬ (width = 4 ∧ off % 4 = 0 ∧ off ≤ 0x1C)) := by
  rw [← accessOk_iff]
  by_cases ha : accessOk off width = true
  · exact .inl ⟨_, if_pos ha⟩
  · exact .inr ⟨if_neg ha, ha⟩

end

/-! ## No command reads `STATUS` -/

/-- A write to some fields of `STATUS`: the value for each field written, `none` for a field kept. -/
structure StatusPatch where
  busy    : Option Bool := none
  done    : Option Bool := none
  fail    : Option Bool := none
  errKind : Option ErrKind := none
  cause   : Option Cause := none
  crcOk   : Option Bool := none
  rvalid  : Option Bool := none
  rkind   : Option Quantity := none
  sbits   : Option (BitVec 2) := none
  rxcnt   : Option (BitVec 2) := none
  pollcnt : Option (BitVec 7) := none

/-- `STATUS` after the write. -/
def StatusPatch.apply (p : StatusPatch) (f : Status) : Status where
  busy := p.busy.getD f.busy
  done := p.done.getD f.done
  fail := p.fail.getD f.fail
  errKind := p.errKind.getD f.errKind
  cause := p.cause.getD f.cause
  crcOk := p.crcOk.getD f.crcOk
  rvalid := p.rvalid.getD f.rvalid
  rkind := p.rkind.getD f.rkind
  sbits := p.sbits.getD f.sbits
  rxcnt := p.rxcnt.getD f.rxcnt
  pollcnt := p.pollcnt.getD f.pollcnt

/-- The fields `complete_ok` writes (10_state.md R28). -/
def StatusPatch.ok : StatusPatch where
  busy := some false
  done := some true
  fail := some false
  errKind := some .none
  cause := some .none

/-- The fields a failing completion writes (60_exceptions.md R156): all of them. -/
def StatusPatch.failed (kind : ErrKind) (cause : Cause) (polls : BitVec 7) : StatusPatch where
  busy := some false
  done := some true
  fail := some true
  errKind := some kind
  cause := some cause
  crcOk := some false
  rvalid := some false
  rkind := some .temperature
  sbits := some 0
  rxcnt := some 0
  pollcnt := some polls

/-- The update does not read `STATUS`: with another `STATUS` before it the same other registers stand after it, and what
it does to `STATUS` is a patch. -/
def StatusBlind (g : State → State) : Prop :=
  ∀ s : State, ∃ p : StatusPatch, ∀ f, g (s.withStatus f) = (g s).withStatus (p.apply f)

/-- The step does not read `STATUS`: it answers no next state whatever `STATUS` is, or it is a blind update. -/
def StatusBlindAt (k : State → Result) (s : State) : Prop :=
  (∀ f t, k (s.withStatus f) ≠ .next t) ∨
  ∃ (u : State) (p : StatusPatch), ∀ f, k (s.withStatus f) = .next (u.withStatus (p.apply f))

@[simp] theorem State.withStatus_phase (s : State) (f : Status) : (s.withStatus f).phase = s.phase := rfl
@[simp] theorem State.withStatus_upc (s : State) (f : Status) : (s.withStatus f).upc = s.upc := rfl
@[simp] theorem State.withStatus_k (s : State) (f : Status) : (s.withStatus f).k = s.k := rfl
@[simp] theorem State.withStatus_t (s : State) (f : Status) : (s.withStatus f).t = s.t := rfl

/-! ### Updates -/

theorem microState_withStatus (m : Micro) (s : State) (f : Status) :
    microState m (s.withStatus f) = (microState m s).withStatus f := by
  cases m with
  | write b c =>
    change ((s.callWrite b).withStatus f).afterWrite s.ackAnswer c = _
    unfold microState State.afterWrite
    cases s.ackAnswer <;> rfl
  | _ => rfl

theorem microEnd_withStatus (m : Micro) (s : State) (f : Status) : microEnd m (s.withStatus f) = microEnd m s := by
  cases m <;> rfl

theorem raiseBus_blind (c : Cause) : StatusBlind (·.raiseBus c) :=
  fun _ => ⟨.failed .busError c 0, fun _ => rfl⟩

theorem triggered_blind : StatusBlind State.triggered := fun _ => ⟨{}, fun _ => rfl⟩

theorem beginPoll_blind : StatusBlind State.beginPoll := fun _ => ⟨{}, fun _ => rfl⟩

theorem pollFailed_blind : StatusBlind State.pollFailed := by
  intro s
  by_cases hk : s.k < Config.pollMax
  · exact ⟨{}, fun f => by simp [State.pollFailed, hk]; rfl⟩
  · exact ⟨.failed .dataError .pollExhausted Config.pollMax, fun f => by simp [State.pollFailed, hk]; rfl⟩

theorem finish_blind (q : Quantity) : StatusBlind (·.finish q) := by
  intro s
  by_cases hc : crc8 (s.t.bytes 2) = s.t.b2
  · exact ⟨{ StatusPatch.ok with
        crcOk := some true, rvalid := some true, rkind := some q, sbits := some (statusBits s.t.b1)
        rxcnt := some (BitVec.ofNat 2 Config.sampleLen), pollcnt := some s.k },
      fun f => by simp only [State.finish, State.withStatus_t, hc]; rfl⟩
  · exact ⟨.failed .dataError .crcMismatch s.k, fun f => by simp only [State.finish, State.withStatus_t, hc]; rfl⟩

/-! ### Steps -/

theorem StatusBlind.next {g : State → State} (hg : StatusBlind g) (s : State) :
    StatusBlindAt (fun s => .next (g s)) s := by
  obtain ⟨p, h⟩ := hg s
  exact .inr ⟨g s, p, fun f => congrArg _ (h f)⟩

theorem StatusBlindAt.congr {k k' : State → Result} {s : State} (hk : StatusBlindAt k' s)
    (h : ∀ f, k (s.withStatus f) = k' (s.withStatus f)) : StatusBlindAt k s := by
  simpa only [StatusBlindAt, h] using hk

theorem StatusBlindAt.of_fault {k : State → Result} {s : State} {e : Fault}
    (h : ∀ f, k (s.withStatus f) = .fault e) : StatusBlindAt k s :=
  .inl fun f t ht => by simp [h] at ht

theorem external_blind {k : State → Result} {s : State} (hk : StatusBlindAt k s.spendCall) :
    StatusBlindAt (external · k) s := by
  by_cases hr : s.env.hangAfter = some 0
  · exact .inr ⟨s, {}, fun f => external_of_hang (s := s.withStatus f) hr⟩
  · have hext (f : Status) : external (s.withStatus f) k = k (s.spendCall.withStatus f) :=
      external_of_returns (s := s.withStatus f) hr
    simpa only [StatusBlindAt, hext] using hk

theorem frameStep_blind (frame : List Micro) {onOk : State → State} {onFail : State → Cause → State}
    (hok : StatusBlind onOk) (hfail : ∀ c, StatusBlind (onFail · c)) (s : State) :
    StatusBlindAt (frameStep frame · onOk onFail) s := by
  cases hm : microAt frame s.upc with
  | none => exact .of_fault (e := .noMicroStep) fun f => by simp [frameStep, hm]
  | some m =>
    refine .congr (external_blind ?_) fun f => by simp only [frameStep, State.withStatus_upc, hm]; rfl
    simp only [StatusBlindAt, microEnd_withStatus, microState_withStatus]
    cases microEnd m s.spendCall with
    | running => exact .inr ⟨_, {}, fun f => rfl⟩
    | ok => exact hok.next (microState m s.spendCall)
    | failed c => exact (hfail c).next (microState m s.spendCall)

theorem inPhase_blind {p : Phase} {k : State → Result} {s : State} (hk : StatusBlindAt k s) :
    StatusBlindAt (fun s => inPhase p s (k s)) s := by
  by_cases hp : s.phase = p
  · exact hk.congr fun f => if_pos hp
  · exact .of_fault fun f => if_neg hp

theorem primCommand_blind (frame : List Micro) {writes : State → State}
    (hw : StatusBlind fun s => (writes s).completeOk) (s : State) : StatusBlindAt (primCommand frame · writes) s :=
  inPhase_blind (frameStep_blind frame hw raiseBus_blind s)

theorem pureCommand_blind {writes : State → State} (hw : StatusBlind fun s => (writes s).completeOk) (s : State) :
    StatusBlindAt (pureCommand · writes) s :=
  inPhase_blind (hw.next s)

theorem measurementStep_blind (cmd : Byte) (q : Quantity) (s : State) : StatusBlindAt (measurementStep cmd q) s := by
  simp only [StatusBlindAt, measurementStep, State.withStatus_phase]
  cases s.phase with
  | trig => exact frameStep_blind _ triggered_blind raiseBus_blind s
  | delay => exact external_blind (beginPoll_blind.next _)
  | poll => exact frameStep_blind _ (fun _ => ⟨{}, fun _ => rfl⟩) (fun _ => pollFailed_blind) s
  | fin => exact (finish_blind q).next s
  | idle | prim | pure => exact .inl fun _ _ ht => by cases ht

theorem exec_blind (i : Instr) (s : State) : StatusBlindAt (exec i) s := by
  cases i with
  | rdreg | rdnr | getur =>
    exact primCommand_blind _ (fun _ => ⟨{ StatusPatch.ok with rxcnt := some _ }, fun _ => rfl⟩) s
  | wrreg | wrcmd | setur | srst => exact primCommand_blind _ (fun _ => ⟨.ok, fun _ => rfl⟩) s
  | meast | meash => exact measurementStep_blind _ _ s
  | crc8 n =>
    exact pureCommand_blind (fun s => ⟨{ StatusPatch.ok with
      crcOk := some (crc8 (s.d.bytes n.toNat) == s.d.get n.toNat) }, fun _ => rfl⟩) s
  | pack =>
    exact pureCommand_blind (fun s => ⟨{ StatusPatch.ok with sbits := some (statusBits s.d.b1) }, fun _ => rfl⟩) s
  | convt | convh =>
    exact pureCommand_blind (fun _ => ⟨{ StatusPatch.ok with
      rvalid := some true, rkind := some _ }, fun _ => rfl⟩) s

/-! ### Fields -/

theorem keptOrIndependent_of_patch {α : Type} {i : Instr} {s u : State} {p : StatusPatch} {field : Status → α}
    (v : Option α) (h : ∀ f, exec i (s.withStatus f) = .next (u.withStatus (p.apply f)))
    (hfield : ∀ f, field (p.apply f) = v.getD (field f)) : KeptOrIndependent i s field := by
  have hnext {f t} (ht : exec i (s.withStatus f) = .next t) : field t.status = v.getD (field f) := by
    cases (h f).symm.trans ht
    exact hfield f
  cases v with
  | none => exact .inl fun f t ht => hnext ht
  | some x => exact .inr ⟨x, fun f t ht => hnext ht⟩

/-! ## Bits of a word -/

/-- A bit is the field of width 1 at its place. -/
theorem getLsbD_of_extractLsb' {n i : Nat} {w : BitVec n} {b : Bool} (h : w.extractLsb' i 1 = BitVec.ofBool b) :
    w.getLsbD i = b := by
  simpa using congrArg (·.getLsbD 0) h

/-! ## The obligations -/

/-- Settles O36: the invariant is kept by each of the effects a step can have (`step_effect`). -/
theorem stepKeepsInvariant : Obligations.StepKeepsInvariant :=
  fun _ _ h hs => (step_effect hs).keeps_inv h

/-- Settles O28: the effects after which `BUSY` is still 1 write hidden registers only. -/
theorem runningStepWritesNoVisibleRegister : Obligations.RunningStepWritesNoVisibleRegister :=
  fun _ _ _ _ hs hb => (exec_effect hs).frame_of_busy hb

/-- Settles O29: of the effects of a step, those that complete the command without failure are the final `stop()` of a
bus command, the matching checksum of a measurement, and the pure commands. -/
theorem successfulCompletionFrame : Obligations.SuccessfulCompletionFrame := by
  intro i s t hb hs hdone hok
  cases exec_effect hs with
  | hung | own | polling | triggered | delayed | polled => simp [hb] at hdone
  | aborted => simp at hok
  | pollFailed =>
    rcases s.spendCall.callStop.pollFailed_cases with ⟨-, ht⟩ | ⟨-, ht⟩ <;> rw [ht] at hdone hok
    · simp [hb] at hdone
    · simp at hok
  | received _ _ _ _ _ hi => rcases hi with ⟨a, r, b, rfl, -⟩ | ⟨a, b, rfl, -⟩ | ⟨rfl, -⟩ <;> simp
  | sent _ _ _ _ hi => rcases hi with ⟨a, r, d, rfl⟩ | ⟨a, r, rfl⟩ | ⟨d, rfl⟩ | rfl <;> simp
  | finished q _ hi =>
    rcases s.finish_cases q with ⟨-, ht⟩ | ⟨-, ht⟩ <;> rw [ht] at hok ⊢
    · rcases hi with hi | hi <;> cases hi <;> simp
    · simp at hok
  | checked n _ hi => subst hi; simp
  | packed _ hi => subst hi; simp
  | converted q _ hi => rcases hi with hi | hi <;> cases hi <;> simp

/-- Settles O37: a reachable state satisfies the invariant, whose clauses give those of R34. -/
theorem reachableStatesSatisfyR34 : Obligations.ReachableStatesSatisfyR34 := by
  intro s hs
  have h : s.Inv := hs.inv
  simp only [ne_eq, ErrKind.code_eq_zero, Cause.code_eq_zero, Quantity.code_eq_zero]
  refine ⟨h.busy_iff, ?_, fun hb => (h.idle hb).2, h.success, h.failure, ?_, ?_, ?_, h.noReading⟩
  · rintro ⟨hb, hd⟩
    have hclear : s.status.done = false := (h.cleared hb).1
    simp [hd] at hclear
  · exact Nat.le_of_lt_succ s.status.rxcnt.isLt
  · exact h.pollcnt
  · exact h.attempts

/-- Settles O38: by the oldest entry of the host's queue; in a turn of the block the invariant gives the sequencer a
micro-step (`Position.exec_progress`). -/
theorem stepStopsOnlyOnUndefinedHostAction : Obligations.StepStopsOnlyOnUndefinedHostAction := by
  intro s h
  cases hq : s.env.host with
  | nil => exact .inl (step_of_empty hq ▸ h.blockTurn_progress)
  | cons a q =>
    cases a with
    | pause => exact .inl (step_of_pause hq ▸ (h.withHost q).blockTurn_progress)
    | awaitDone =>
      rw [step_of_awaitDone hq]
      split
      · exact .inl ⟨_, rfl⟩
      · exact .inl h.blockTurn_progress
    | read off width =>
      rw [step_of_read hq]
      exact (hostRead_progress (s.withHost q) off width).imp id fun ⟨hr, ha⟩ =>
        .inr ⟨hr, q, off, width, 0, .inl rfl, ha⟩
    | write off width v =>
      rw [step_of_write hq]
      exact (hostWrite_progress (s.withHost q) off width v).imp id fun ⟨hr, ha⟩ =>
        .inr ⟨hr, q, off, width, v, .inr rfl, ha⟩
    | reset =>
      rw [step_of_reset hq]
      cases hb : s.status.busy with
      | true => exact .inr (.inl ⟨by simp [hostReset, hb], rfl, q, rfl⟩)
      | false => exact .inl ⟨_, by simp [hostReset, hb]; rfl⟩

/-- Settles O39: reset finds the bus stopped, as the invariant says of an idle block. -/
theorem stepMakesAtMostOneCall : Obligations.StepMakesAtMostOneCall := by
  intro s t h hs
  change AtMostOneCall s t
  cases step_effect hs with
  | still | read => exact .zero rfl rfl
  | ran q _ _ he => exact he.atMostOneCall
  | wrote q off v =>
    obtain ⟨henv, hheld⟩ := (s.withHost q).writeIdle_keeps off v
    exact .zero (by simp [henv]) hheld
  | wasReset q hb => exact .zero rfl (h.idle hb).2.symm

/-- Settles O40: a step of the command keeps `IR`, and the host writes it only while `BUSY = 0`. -/
theorem commandWordIsLatchedWhileBusy : Obligations.CommandWordIsLatchedWhileBusy := by
  intro s t hb hs
  cases step_effect hs with
  | still | read => rfl
  | ran h _ _ he => exact he.ir
  | wrote _ _ _ hidle => simp [hb] at hidle
  | wasReset _ hidle => simp [hb] at hidle

/-- Settles O41: a step of a command is an update that does not read `STATUS` (`exec_blind`), and a patch keeps each
field or writes it one value. -/
theorem noCommandReadsStatus : Obligations.NoCommandReadsStatus := by
  intro i s t ht
  rcases exec_blind i s with hno | ⟨u, p, h⟩
  · exact absurd ht (hno s.status t)
  obtain rfl : u.withStatus (p.apply s.status) = t := Host.Outcome.next.inj ((h s.status).symm.trans ht)
  have hkept {α : Type} {field : Status → α} (v : Option α)
      (hv : ∀ f, field (p.apply f) = v.getD (field f)) : KeptOrIndependent i s field :=
    keptOrIndependent_of_patch v h hv
  exact ⟨fun f => ⟨_, h f, rfl⟩, hkept p.busy fun _ => rfl, hkept p.done fun _ => rfl, hkept p.fail fun _ => rfl,
    hkept p.errKind fun _ => rfl, hkept p.cause fun _ => rfl, hkept p.crcOk fun _ => rfl, hkept p.rvalid fun _ => rfl,
    hkept p.rkind fun _ => rfl, hkept p.sbits fun _ => rfl, hkept p.rxcnt fun _ => rfl, hkept p.pollcnt fun _ => rfl⟩

/-- Settles O1: `OPC` 0 names no row of the opcode map, so the reset value of `IR` is no command word. -/
theorem resetLeavesSpecValues : Obligations.ResetLeavesSpecValues := by
  intro e s
  have hd : decode 0 = .error .unknownOpcode := by decide
  refine ⟨rfl, rfl, rfl, rfl, rfl, rfl, ?_, rfl, rfl, rfl, rfl, rfl, rfl, rfl, rfl, rfl, rfl, rfl, rfl, rfl, rfl,
    rfl, rfl, rfl, ?_, blockTurn_of_idle rfl⟩
  · show Status.reset.word = 0
    decide
  · intro i hi
    cases hd.symm.trans hi

/-- Settles O7: a write to `CMD` while `BUSY = 0` is `State.writeCommand`. -/
theorem commandAcceptance : Obligations.CommandAcceptance := by
  intro s q w hb hq
  have hs : step s = .next ((s.withHost q).writeCommand w) :=
    (step_of_write hq).trans (hostWrite_command hb)
  constructor
  · intro i hd
    rw [hs, writeCommand_legal hd]
    cases i <;> rfl
  · intro e hd
    rw [hs, writeCommand_illegal hd]
    rfl

/-- Settles O9: each field is cut out of the appended groups it stands in. -/
theorem statusWordLayout : Obligations.StatusWordLayout := by
  intro f
  refine ⟨getLsbD_of_extractLsb' ?_, getLsbD_of_extractLsb' ?_, getLsbD_of_extractLsb' ?_, ?_, ?_,
    getLsbD_of_extractLsb' ?_, getLsbD_of_extractLsb' ?_, ?_, getLsbD_of_extractLsb' ?_, ?_, ?_, ?_, ?_⟩
  all_goals
    unfold Status.word Status.highBits Status.middleBits Status.lowBits
    simp (disch := decide) only [BitVec.extractLsb'_append_eq_of_le, BitVec.extractLsb'_append_eq_of_add_le]
    exact BitVec.extractLsb'_eq_self

/-- Settles O10: a turn of the busy block is `exec` of the command in `IR` (`step_of_turn`). -/
theorem stepRunsDecodedCommand : Obligations.StepRunsDecodedCommand :=
  fun _ _ _ ht hb hd => step_of_turn ht hb hd

/-- Settles O11: a placed legal word is accepted, and the accepted state has the block's turn next. -/
theorem placedWordRunsNext : Obligations.PlacedWordRunsNext := by
  intro s w i hw
  have hd := decode_of_decodeTableWord hw
  obtain ⟨hst, hir⟩ := yielding_block (s.accept (wordOfTableBits 32 w) i)
  rw [State.withFetchWord, loadWord_legal hd]
  exact step_of_turn (blockTurnState_yielding _) (by simp [hst]) (by simpa [hir] using hd)

/-- Settles O35: the reset values satisfy each clause (`inv_reset`). -/
theorem resetSatisfiesInvariant : Obligations.ResetSatisfiesInvariant := inv_reset

end Sys2Proof.Machine
end

section
/-! PROOFS. The family of 20_memory.md: what a host access of the window answers, by its offset and by `BUSY`. -/

namespace Sys2Proof.Machine

section
variable {s : State} {off width : Nat} {v : Word}

/-! ## The accesses with a meaning -/

theorem hostRead_defined (ha : width = 4 ∧ off % 4 = 0 ∧ off ≤ 0x1C) :
    hostRead s off width = .next { s with env := { s.env with reads := s.env.reads ++ [(off, windowReg s off)] } } :=
  if_pos (accessOk_iff.mpr ha)

theorem hostRead_undefined (ha : ¬ (width = 4 ∧ off % 4 = 0 ∧ off ≤ 0x1C)) :
    hostRead s off width = .refused .hostAccessUndefined :=
  if_neg (mt accessOk_iff.mp ha)

theorem hostWrite_defined (ha : width = 4 ∧ off % 4 = 0 ∧ off ≤ 0x1C) :
    hostWrite s off width v = .next (if s.status.busy then s else s.writeIdle off v) :=
  if_pos (accessOk_iff.mpr ha)

theorem hostWrite_undefined (ha : ¬ (width = 4 ∧ off % 4 = 0 ∧ off ≤ 0x1C)) :
    hostWrite s off width v = .refused .hostAccessUndefined :=
  if_neg (mt accessOk_iff.mp ha)

theorem hostWrite_of_busy (hb : s.status.busy = true) (ha : off % 4 = 0 ∧ off ≤ 0x1C) :
    hostWrite s off 4 v = .next s := by
  simp [hostWrite_defined ⟨rfl, ha⟩, hb]

theorem hostWrite_of_idle (hb : s.status.busy = false) (ha : off % 4 = 0 ∧ off ≤ 0x1C) :
    hostWrite s off 4 v = .next (s.writeIdle off v) := by
  simp [hostWrite_defined ⟨rfl, ha⟩, hb]

/-! ## The registers of the window -/

@[simp] theorem windowReg_withHost (s : State) (q : List HostAct) (off : Nat) :
    windowReg (s.withHost q) off = windowReg s off := rfl

/-- The table of R40: the offset of each register of the window, with the value a read returns. -/
theorem windowReg_of_table
    (h : (off, v) ∈ [(0x00, s.ir), (0x04, s.status.word), (0x08, 0#8 ++ s.d.b2 ++ s.d.b1 ++ s.d.b0),
      (0x0C, s.raw.setWidth 32), (0x10, s.resultFx), (0x14, s.resultFp), (0x18, s.crcVal.setWidth 32),
      (0x1C, (0 : Word))]) :
    (off % 4 = 0 ∧ off ≤ 0x1C) ∧ windowReg s off = v := by
  simp only [List.mem_cons, Prod.mk.injEq, List.not_mem_nil, or_false] at h
  rcases h with ⟨rfl, rfl⟩ | ⟨rfl, rfl⟩ | ⟨rfl, rfl⟩ | ⟨rfl, rfl⟩ |
    ⟨rfl, rfl⟩ | ⟨rfl, rfl⟩ | ⟨rfl, rfl⟩ | ⟨rfl, rfl⟩ <;> exact ⟨by decide, rfl⟩

theorem writeIdle_dbuf (s : State) (v : Word) :
    s.writeIdle 0x08 v = { s with d := ⟨v.extractLsb' 0 8, v.extractLsb' 8 8, v.extractLsb' 16 8⟩ } := rfl

theorem writeIdle_raw (s : State) (v : Word) : s.writeIdle 0x0C v = { s with raw := v.extractLsb' 0 16 } := by
  simp [State.writeIdle, BitVec.setWidth_eq_extractLsb']

theorem writeIdle_ignored (s : State) (v : Word) (h : off ∈ [0x04, 0x10, 0x14, 0x18, 0x1C]) :
    s.writeIdle off v = s := by
  have hne : off ≠ 0x00 ∧ off ≠ 0x08 ∧ off ≠ 0x0C := by
    simp only [List.mem_cons, List.not_mem_nil, or_false] at h
    omega
  simp [State.writeIdle, hne]

/-! ## `STATUS` while a command runs -/

theorem Status.word_low (f : Status) : f.word.extractLsb' 0 8 = f.lowBits := by
  rw [Status.word, BitVec.extractLsb'_append_eq_of_add_le (by decide), BitVec.extractLsb'_eq_self]

theorem Status.word_pollcnt (f : Status) : f.word.extractLsb' 16 7 = f.pollcnt := by
  obtain ⟨-, -, -, -, -, -, -, -, -, -, -, hpoll, -⟩ := statusWordLayout f
  exact hpoll

theorem State.Inv.lowBits_of_busy (h : s.Inv) (hb : s.status.busy = true) : s.status.lowBits = 1 := by
  obtain ⟨hdone, hfail, -⟩ := h.cleared hb
  obtain ⟨hkind, hcause⟩ := h.success hfail
  rw [Status.lowBits, hb, hdone, hfail, hkind, hcause]
  decide

end

/-! ## The obligations -/

/-- Settles O3: the offsets of the table are those of defined accesses (`windowReg_of_table`). -/
theorem hostReadReturnsRegister : Obligations.HostReadReturnsRegister := by
  intro s q off v hreg hq
  obtain ⟨ha, rfl⟩ := windowReg_of_table hreg
  rw [step_of_read hq, hostRead_defined ⟨rfl, ha⟩, windowReg_withHost]
  rfl

/-- Settles O4: a write of the window while `BUSY = 0` is `State.writeIdle`, taken offset by offset. -/
theorem hostWriteWhileIdle : Obligations.HostWriteWhileIdle := by
  intro s q off v hb hq s'
  have hs (ha : off % 4 = 0 ∧ off ≤ 0x1C) : step s = .next (s'.writeIdle off v) :=
    (step_of_write hq).trans (hostWrite_of_idle hb ha)
  refine ⟨?_, ?_, ?_, ?_, ?_⟩
  · rintro rfl i hd
    exact (hs (by decide)).trans (congrArg _ (writeCommand_legal hd))
  · rintro rfl e hd
    exact (hs (by decide)).trans (congrArg _ (writeCommand_illegal hd))
  · rintro rfl
    exact (hs (by decide)).trans (congrArg _ (writeIdle_dbuf s' v))
  · rintro rfl
    exact (hs (by decide)).trans (congrArg _ (writeIdle_raw s' v))
  · intro hoff
    have ha : ∀ o ∈ [0x04, 0x10, 0x14, 0x18, 0x1C], o % 4 = 0 ∧ o ≤ 0x1C := by decide
    exact (hs (ha off hoff)).trans (congrArg _ (writeIdle_ignored s' v hoff))

/-- Settles O5: the low byte of `STATUS` and `POLLCNT` are what the invariant keeps them at while a command runs. -/
theorem hostAccessWhileBusy : Obligations.HostAccessWhileBusy := by
  intro s h hb
  refine ⟨?_, ?_, ?_⟩
  · intro q off v halign hle hq
    exact (step_of_write hq).trans (hostWrite_of_busy hb ⟨halign, hle⟩)
  · rw [Status.word_low, h.lowBits_of_busy hb]
  · obtain ⟨-, -, hpoll⟩ := h.cleared hb
    rw [Status.word_pollcnt, hpoll]

/-- Settles O6: the access of either direction is answered or refused by the one condition `accessOk`. -/
theorem malformedHostAccessRefused : Obligations.MalformedHostAccessRefused := by
  intro s q off width v hq
  rcases hq with hq | hq
  · rw [step_of_read hq]
    exact ⟨fun ha => ⟨_, hostRead_defined ha⟩, hostRead_undefined⟩
  · rw [step_of_write hq]
    exact ⟨fun ha => ⟨_, hostWrite_defined ha⟩, hostWrite_undefined⟩

end Sys2Proof.Machine
end

section
/-! PROOFS. The family of 30_encoding.md: the opcode map as the meaning of `decode`, and the encoder as its inverse. -/

namespace Sys2Proof

theorem and_eq_of_eq_allOnes {n : Nat} {b m : BitVec n} (hm : m = BitVec.allOnes n) : b &&& m = b :=
  hm ▸ BitVec.and_allOnes

/-! ## Decoding by the rows of the opcode map -/

/-- The word is one of the row's: it has the row's shape and meets the column "also" (30_encoding.md R62). -/
def OpRow.Covers (row : OpRow) (w : Word) : Prop := w &&& row.mask = row.pattern ∧ alsoCheck row.op w = none

section
variable {w : Word} {row : OpRow} {i : Instr}

theorem alsoCheck_eq_none_iff (op : Op) (w : Word) :
    alsoCheck op w = none ↔ (op = .rdreg ∨ op = .rdnr → immField w ≠ 0) ∧ (op = .crc8 → immField w ≠ 3) := by
  cases op <;> simp [alsoCheck]

/-- `OPC` names at most one row. -/
theorem rowOf_of_opcField (hrow : row ∈ opTable) (ho : opcField w = row.opc) : rowOf w = some row := by
  have hfind : ∀ row ∈ opTable, opTable.find? (·.opc == row.opc) = some row := by decide
  simpa only [rowOf, ho] using hfind row hrow

theorem opcField_of_shape (hrow : row ∈ opTable) (hs : w &&& row.mask = row.pattern) : opcField w = row.opc := by
  have hopc : ∀ row ∈ opTable, opcField row.mask = BitVec.allOnes 8 ∧ opcField row.pattern = row.opc := by decide
  obtain ⟨hmask, hpattern⟩ := hopc row hrow
  obtain ⟨ho, -⟩ := (shape_iff _ _ _).mp hs
  rwa [hmask, hpattern, BitVec.and_allOnes] at ho

theorem decode_of_covers (hrow : row ∈ opTable) (hw : row.Covers w) : decode w = .ok (commandOf row.op w) :=
  decode_of_row (rowOf_of_opcField hrow (opcField_of_shape hrow hw.1)) hw.1 hw.2

theorem covers_of_decode (hd : decode w = .ok i) : ∃ row ∈ opTable, row.Covers w ∧ i = commandOf row.op w := by
  obtain ⟨row, hrow, hs, ha, hi⟩ := decode_eq_ok hd
  exact ⟨row, (rowOf_mem hrow).1, ⟨hs, ha⟩, hi⟩

theorem decode_error_of_not_covers (h : ∀ row ∈ opTable, ¬ row.Covers w) : ∃ e, decode w = .error e := by
  cases hd : decode w with
  | error e => exact ⟨e, rfl⟩
  | ok i =>
    obtain ⟨row, hrow, hw, -⟩ := covers_of_decode hd
    exact absurd hw (h row hrow)

/-! ## The words of a row are the encodings of its well-formed commands -/

/-- Row by row and field by field: a field under the mask stands in the pattern and in the encoding, the others are
operands, and `IMM` under the mask `0xFC` with the column "also" is the operand's range. -/
theorem covers_iff_eq_encode (hrow : row ∈ opTable) :
    row.Covers w ↔ w = encode (commandOf row.op w) ∧ (commandOf row.op w).wf = true := by
  rw [OpRow.Covers, shape_iff, alsoCheck_eq_none_iff]
  simp only [opTable, List.mem_cons, List.not_mem_nil, or_false] at hrow
  rcases hrow with rfl | rfl | rfl | rfl | rfl | rfl | rfl | rfl | rfl | rfl | rfl | rfl | rfl
  all_goals
    simp only [commandOf, encode, eq_wordOfFields_iff, Instr.wf, lenOk_iff_mask, countOk_iff_mask]
    simp (disch := decide) [opcField, z23Field, addrField, regField, immField, and_eq_of_eq_allOnes, and_assoc]

theorem commandOf_encode (i : Instr) : ∃ row ∈ opTable, commandOf row.op (encode i) = i := by
  cases i <;> simp [opTable, encode, commandOf]

end

/-! ## The obligations -/

/-- Settles O14: the row of the command covers its encoding and reads the command back (`covers_iff_eq_encode`). -/
theorem decodeOfEncode : Obligations.DecodeOfEncode := by
  intro i hwf
  obtain ⟨row, hrow, hi⟩ := commandOf_encode i
  have hcovers : row.Covers (encode i) := (covers_iff_eq_encode hrow).mpr ⟨by rw [hi], by rwa [hi]⟩
  rw [decode_of_covers hrow hcovers, hi]

/-- Settles O15: a row covers the legal word, so it is the encoding of that row's command (`covers_iff_eq_encode`). -/
theorem encodeOfDecode : Obligations.EncodeOfDecode := by
  intro w i hd
  obtain ⟨row, hrow, hw, rfl⟩ := covers_of_decode hd
  obtain ⟨henc, hwf⟩ := (covers_iff_eq_encode hrow).mp hw
  exact ⟨hwf, henc.symm⟩

/-- Settles O13: it is `decode_of_covers` and `decode_error_of_not_covers` with the opcode map written out. -/
theorem decodeFollowsOpcodeMap : Obligations.DecodeFollowsOpcodeMap := by
  intro w
  have hrows : (∀ row ∈ opTable, row.Covers w → decode w = .ok (commandOf row.op w)) ∧
      ((∀ row ∈ opTable, ¬ row.Covers w) → ∃ e, decode w = .error e) :=
    ⟨fun _ => decode_of_covers, decode_error_of_not_covers⟩
  simpa (disch := decide) [opTable, OpRow.Covers, alsoCheck_eq_none_iff, commandOf, addrField, regField,
    immField, and_eq_of_eq_allOnes, and_assoc] using hrows

/-- Settles O12, by evaluating the decoder on the seven words. -/
theorem writtenOutWordsDecode : Obligations.WrittenOutWordsDecode := by
  unfold Obligations.WrittenOutWordsDecode
  decide

/-- Settles O16: each of the three runs the primitive's own frame and final writes at the fixed operands. -/
theorem deviceControlActsAsPrimitive : Obligations.DeviceControlActsAsPrimitive :=
  fun _ _ => ⟨rfl, rfl, rfl⟩

end Sys2Proof
end

section
/-! PROOFS. The family of 40_transaction_primitives.md: the four frames written out, what each micro-step does, and the
runs of the bus commands from acceptance to completion. -/

namespace Sys2Proof.Machine

/-! ## The frames, micro-step by micro-step -/

/-- What RDREG does before its read loop (R81). -/
def headRdreg (a : DevAddr) (r : Byte) : List Micro :=
  [.start, .write (a ++ 0#1) .nackAddrW, .write r .nackReg, .start, .write (a ++ 1#1) .nackAddrR]

/-- What RDNR does before its read loop (R82). -/
def headRdnr (a : DevAddr) : List Micro := [.start, .write (a ++ 1#1) .nackAddrR]

section
variable {f head : List Micro} {i j n : Nat}

theorem frameRdreg_eq (a : DevAddr) (r : Byte) (n : Nat) :
    frameRdreg a r n = headRdreg a r ++ (readLoop 0 n ++ [Micro.stopOk]) := by
  simp [frameRdreg, headRdreg, addressByte_write, addressByte_read]

theorem frameRdnr_eq (a : DevAddr) (n : Nat) : frameRdnr a n = headRdnr a ++ (readLoop 0 n ++ [Micro.stopOk]) := by
  simp [frameRdnr, headRdnr, addressByte_read]

theorem frameWrreg_eq (a : DevAddr) (r d : Byte) :
    frameWrreg a r d =
      [.start, .write (a ++ 0#1) .nackAddrW, .write r .nackReg, .write d .nackData, .stopOk] := by
  simp [frameWrreg, addressByte_write]

theorem frameWrcmd_eq (a : DevAddr) (r : Byte) :
    frameWrcmd a r = [.start, .write (a ++ 0#1) .nackAddrW, .write r .nackReg, .stopOk] := by
  simp [frameWrcmd, addressByte_write]

/-- The even places of a read loop are its reads (R86). -/
theorem readLoop_read (hj : j < n) : (readLoop i n)[2 * j]? = some (.read (i + j)) := by
  induction n generalizing i j with
  | zero => omega
  | succ n ih =>
    cases j with
    | zero => rfl
    | succ j => simpa [readLoop, Nat.mul_succ, Nat.add_assoc, Nat.add_comm 1 j] using ih (i := i + 1) (by omega : j < n)

/-- The odd places of a read loop are its answers: `A`, and `N` after the last byte (R86). -/
theorem readLoop_answer (hj : j < n) :
    (readLoop i n)[2 * j + 1]? = some (if j + 1 < n then .sendAck else .sendNack) := by
  induction n generalizing i j with
  | zero => omega
  | succ n ih =>
    cases j with
    | zero => cases n <;> simp [readLoop]
    | succ j => simpa [readLoop, Nat.mul_succ] using ih (i := i + 1) (by omega : j < n)

/-- The micro-steps of a read frame from its read loop on, below the abort step. -/
theorem microAt_readFrame (hf : f = head ++ (readLoop 0 n ++ [Micro.stopOk])) (hfits : head.length + 2 * n < abortUpc) :
    (∀ j < n, microAt f (head.length + 2 * j) = some (.read j) ∧
      microAt f (head.length + 1 + 2 * j) = some (if j + 1 < n then .sendAck else .sendNack)) ∧
    microAt f (head.length + 2 * n) = some .stopOk ∧
    ∀ u, head.length + 2 * n < u → u ≠ abortUpc → microAt f u = none := by
  have hloop (u : Nat) (hu : u ≤ 2 * n) : microAt f (head.length + u) = (readLoop 0 n ++ [Micro.stopOk])[u]? := by
    rw [microAt_of_ne (by omega), hf, List.getElem?_append_right (by omega), Nat.add_sub_cancel_left]
  refine ⟨fun j hj => ⟨?_, ?_⟩, ?_, fun u hu hne => ?_⟩
  · rw [hloop _ (by omega), List.getElem?_append_left (by rw [readLoop_length]; omega), readLoop_read hj, Nat.zero_add]
  · rw [Nat.add_assoc, Nat.add_comm 1, hloop _ (by omega), List.getElem?_append_left (by rw [readLoop_length]; omega),
      readLoop_answer hj]
  · simp [hloop, readLoop_length]
  · rw [microAt_of_ne hne, hf, List.getElem?_eq_none]
    simp [readLoop_length]
    omega

theorem microAt_of_append {f pre post : List Micro} {m : Micro} (hshape : WellShaped f) (hf : f = pre ++ m :: post) :
    microAt f pre.length = some m := by
  have hlt : pre.length < f.length := by simp [hf]
  have hfits := hshape.fits
  rw [microAt_of_ne (by omega)]
  simp [hf]

end

/-! ## Micro-steps with scripted answers -/

/-- The call a micro-step makes when a byte written is acknowledged and `R(i)` receives `d i`. -/
def Micro.call (d : Nat → Byte) : Micro → Call
  | .start => .start
  | .write b _ => .writeByte b .ack
  | .read i => .readByte (d i)
  | .sendAck => .sendAck
  | .sendNack => .sendNack
  | .stopOk | .stopFail => .stop

/-- The answers to `writeByte` a micro-step uses up when it is acknowledged. -/
def Micro.acks : Micro → List Ack
  | .write _ _ => [.ack]
  | .start | .read _ | .sendAck | .sendNack | .stopOk | .stopFail => []

/-- The bytes a micro-step uses up when `R(i)` receives `d i`. -/
def Micro.bytes (d : Nat → Byte) : Micro → List Byte
  | .read i => [d i]
  | .start | .write _ _ | .sendAck | .sendNack | .stopOk | .stopFail => []

/-- The working buffer after a micro-step when `R(i)` receives `d i`. -/
def Micro.store (d : Nat → Byte) (b : Buf) : Micro → Buf
  | .read i => b.set i (d i)
  | .start | .write _ _ | .sendAck | .sendNack | .stopOk | .stopFail => b

/-- The scripts acknowledge every byte the micro-steps write and give `d i` to `R(i)`; `as` and `bs` are left over. -/
structure State.Scripted (s : State) (d : Nat → Byte) (ms : List Micro) (as : List Ack) (bs : List Byte) : Prop where
  acks  : s.env.acks = ms.flatMap Micro.acks ++ as
  bytes : s.env.bytes = ms.flatMap (Micro.bytes d) ++ bs

/-- The state after the micro-steps `ms`, none of them a `stop()`, with the answers `State.Scripted` says
(`RunsFrame.run_played`). -/
def State.played (s : State) (d : Nat → Byte) (ms : List Micro) (as : List Ack) (bs : List Byte) : State :=
  { s with
    upc := s.upc + ms.length
    held := heldAfter s.held (ms.map (Micro.call d))
    t := ms.foldl (Micro.store d) s.t
    env := { s.env with acks := as, bytes := bs, calls := s.env.calls ++ ms.map (Micro.call d) } }

/-- The state after a `W(b, c)` that is not acknowledged (R80). -/
def State.refusedWrite (s : State) (b : Byte) (c : Cause) (as : List Ack) : State :=
  { s with
    upc := abortUpc
    causeP := c
    env := { s.env with acks := as, calls := s.env.calls ++ [Call.writeByte b .nack] } }

section
variable {s : State} {d : Nat → Byte} {m : Micro} {ms : List Micro} {as as' : List Ack} {bs bs' : List Byte}

theorem Micro.Middle.ne_stop (h : m.Middle) : m ≠ .stopOk ∧ m ≠ .stopFail := by
  constructor <;> rintro rfl <;> exact h

theorem State.Scripted.first (h : s.Scripted d (m :: ms) as bs) :
    s.Scripted d [m] (ms.flatMap Micro.acks ++ as) (ms.flatMap (Micro.bytes d) ++ bs) :=
  ⟨by simpa using h.acks, by simpa using h.bytes⟩

theorem State.played_nil (h : s.Scripted d [] as bs) : s.played d [] as bs = s := by
  obtain ⟨rfl, rfl⟩ : s.env.acks = as ∧ s.env.bytes = bs := ⟨h.acks, h.bytes⟩
  simp [State.played, heldAfter]

theorem State.played_played : (s.played d [m] as bs).played d ms as' bs' = s.played d (m :: ms) as' bs' := by
  have hheld : heldAfter (heldAfter s.held [m.call d]) (ms.map (Micro.call d)) =
      heldAfter s.held (m.call d :: ms.map (Micro.call d)) := by
    cases m <;> rfl
  simp [State.played, hheld, Nat.add_assoc, Nat.add_comm 1]

@[simp] theorem State.spendCall_ackAnswer : s.spendCall.ackAnswer = s.ackAnswer := rfl

@[simp] theorem State.spendCall_byteAnswer : s.spendCall.byteAnswer = s.byteAnswer := rfl

theorem State.spendCall_of_allCallsReturn (h : s.AllCallsReturn) : s.spendCall = s := by
  rw [State.spendCall, h, Option.map_none, ← h]

/-- A micro-step that is no `stop()` does what its scripted answer makes it do. -/
theorem microState_eq_played (hok : m ≠ .stopOk) (hfail : m ≠ .stopFail) (h : s.Scripted d [m] as bs) :
    microState m s = s.played d [m] as bs := by
  obtain ⟨ha, hb⟩ := h
  cases m with
  | stopOk => exact absurd rfl hok
  | stopFail => exact absurd rfl hfail
  | write b c =>
    replace ha : s.env.acks = .ack :: as := ha
    replace hb : s.env.bytes = bs := hb
    simp [microState, State.ackAnswer, ha, hb, State.afterWrite, State.advance, State.callWrite, State.dropAck,
      State.record, State.played, heldAfter, Micro.call, Micro.store]
  | read i =>
    replace ha : s.env.acks = as := ha
    replace hb : s.env.bytes = d i :: bs := hb
    simp [microState, State.byteAnswer, ha, hb, State.advance, State.callRead, State.dropByte, State.record,
      State.played, heldAfter, Micro.call, Micro.store]
  | start | sendAck | sendNack =>
    obtain ⟨rfl, rfl⟩ : s.env.acks = as ∧ s.env.bytes = bs := ⟨ha, hb⟩
    rfl

theorem microState_eq_refusedWrite {b : Byte} {c : Cause} (h : s.env.acks = .nack :: as) :
    microState (.write b c) s = s.refusedWrite b c as := by
  simp [microState, State.ackAnswer, h, State.afterWrite, State.callWrite, State.dropAck, State.record,
    State.refusedWrite]

end

/-- A micro-step that is no `stop()` makes the frame go on. -/
theorem frameStep_running {f : List Micro} {s : State} {m : Micro} {onOk : State → State}
    {onFail : State → Cause → State} (hm : microAt f s.upc = some m) (hok : m ≠ .stopOk)
    (hfail : m ≠ .stopFail) (h : s.NextCallReturns) :
    frameStep f s onOk onFail = .next (microState m s.spendCall) := by
  cases m with
  | start => exact frameStep_start hm h
  | write b c => exact frameStep_write hm h
  | read i => exact frameStep_read hm h
  | sendAck => exact frameStep_sendAck hm h
  | sendNack => exact frameStep_sendNack hm h
  | stopOk => exact absurd rfl hok
  | stopFail => exact absurd rfl hfail

/-! ## Running a frame -/

/-- The block runs the command `i`, the host leaves it every turn, and every call returns. -/
structure State.Ready (s : State) (i : Instr) : Prop where
  busy    : s.status.busy = true
  decoded : decode s.ir = .ok i
  host    : s.env.host = []
  returns : s.AllCallsReturn

/-- In phase `p` the command `i` runs the frame `f`, which ends in `onOk` or `onFail`. -/
structure RunsFrame (i : Instr) (p : Phase) (f : List Micro) (onOk : State → State) (onFail : State → Cause → State) :
    Prop where
  shape   : WellShaped f
  exec_eq : ∀ s : State, s.phase = p → exec i s = frameStep f s onOk onFail

section
variable {s : State} {i : Instr} {p : Phase} {f : List Micro} {onOk : State → State} {onFail : State → Cause → State}
  {d : Nat → Byte} {m : Micro} {ms pre post : List Micro} {as : List Ack} {bs : List Byte} {b : Byte} {c : Cause}

theorem State.Ready.step_eq (h : s.Ready i) : step s = exec i s :=
  (step_of_empty h.host).trans (blockTurn_of_busy h.busy h.decoded)

theorem State.Ready.nextCallReturns (h : s.Ready i) : s.NextCallReturns := by
  simp [h.returns]

theorem State.Ready.played (h : s.Ready i) : (s.played d ms as bs).Ready i := ⟨h.busy, h.decoded, h.host, h.returns⟩

theorem State.Ready.refusedWrite (h : s.Ready i) : (s.refusedWrite b c as).Ready i :=
  ⟨h.busy, h.decoded, h.host, h.returns⟩

theorem State.Ready.accept (hwf : i.wf = true) (hhost : s.env.host = []) (hret : s.AllCallsReturn) :
    (s.accept (encode i) i).Ready i :=
  ⟨rfl, decodeOfEncode i hwf, hhost, hret⟩

/-- A micro-step that is no `stop()`, as one step of the machine. -/
theorem RunsFrame.step_running (hr : RunsFrame i p f onOk onFail) (hs : s.Ready i) (hp : s.phase = p)
    (hm : microAt f s.upc = some m) (hok : m ≠ .stopOk) (hfail : m ≠ .stopFail) : step s = .next (microState m s) := by
  rw [hs.step_eq, hr.exec_eq s hp, frameStep_running hm hok hfail hs.nextCallReturns,
    State.spendCall_of_allCallsReturn hs.returns]

theorem RunsFrame.step_stopOk (hr : RunsFrame i p f onOk onFail) (hs : s.Ready i) (hp : s.phase = p)
    (hm : microAt f s.upc = some .stopOk) : step s = .next (onOk s.callStop) := by
  rw [hs.step_eq, hr.exec_eq s hp, frameStep_stopOk hm hs.nextCallReturns, State.spendCall_of_allCallsReturn hs.returns]

theorem RunsFrame.step_stopFail (hr : RunsFrame i p f onOk onFail) (hs : s.Ready i) (hp : s.phase = p)
    (hu : s.upc = abortUpc) : step s = .next (onFail s.callStop s.causeP) := by
  rw [hs.step_eq, hr.exec_eq s hp, frameStep_stopFail (by rw [hu, microAt_abort]) hs.nextCallReturns,
    State.spendCall_of_allCallsReturn hs.returns]

/-- A stretch of a frame without a `stop()` runs in as many steps as it has micro-steps, when the scripts serve it. -/
theorem RunsFrame.run_played (hr : RunsFrame i p f onOk onFail) (hs : s.Ready i) (hp : s.phase = p)
    (hf : f = pre ++ (ms ++ post)) (hu : s.upc = pre.length) (hmid : ∀ m ∈ ms, m.Middle)
    (hscript : s.Scripted d ms as bs) : Host.Core.run core ms.length s = .next (s.played d ms as bs) := by
  induction ms generalizing s pre with
  | nil => rw [State.played_nil hscript]; rfl
  | cons m ms ih =>
    obtain ⟨hok, hfail⟩ := (hmid m List.mem_cons_self).ne_stop
    have hm : microAt f s.upc = some m := hu ▸ microAt_of_append hr.shape hf
    have hstep := hr.step_running hs hp hm hok hfail
    rw [microState_eq_played hok hfail hscript.first] at hstep
    rw [List.length_cons, run_succ _ hstep,
      ih (pre := pre ++ [m]) hs.played hp (by simp [hf]) (by simp [State.played, hu])
        (fun m' hm' => hmid m' (List.mem_cons_of_mem m hm')) ⟨rfl, rfl⟩,
      State.played_played]

/-- A frame whose every byte is acknowledged runs from its start to `frame_ok`. -/
theorem RunsFrame.run_ok (hr : RunsFrame i p f onOk onFail) (hs : s.Ready i) (hp : s.phase = p) (hu : s.upc = 0)
    (hf : f = ms ++ [Micro.stopOk]) (hmid : ∀ m ∈ ms, m.Middle) (hscript : s.Scripted d ms as bs) :
    Host.Core.run core (ms.length + 1) s = .next (onOk (s.played d ms as bs).callStop) := by
  have hm : microAt f (s.played d ms as bs).upc = some .stopOk := by
    simpa [State.played, hu] using microAt_of_append hr.shape hf
  rw [run_add _ _ (hr.run_played (pre := []) hs hp hf hu hmid hscript),
    run_succ _ (hr.step_stopOk hs.played hp hm), run_zero]

/-- A frame whose byte `b` is refused, every byte before it acknowledged, runs from its start through the abort step to
`frame_fail(c)`. -/
theorem RunsFrame.run_refused (hr : RunsFrame i p f onOk onFail) (hs : s.Ready i) (hp : s.phase = p) (hu : s.upc = 0)
    (hf : f = ms ++ Micro.write b c :: post) (hmid : ∀ m ∈ ms, m.Middle) (hscript : s.Scripted d ms (.nack :: as) bs) :
    Host.Core.run core (ms.length + 2) s =
      .next (onFail ((s.played d ms (.nack :: as) bs).refusedWrite b c as).callStop c) := by
  have hm : microAt f (s.played d ms (.nack :: as) bs).upc = some (.write b c) := by
    simpa [State.played, hu] using microAt_of_append hr.shape hf
  have hnack := hr.step_running hs.played hp hm (by simp) (by simp)
  rw [microState_eq_refusedWrite rfl] at hnack
  rw [run_add _ _ (hr.run_played (pre := []) hs hp hf hu hmid hscript), run_succ _ hnack,
    run_succ _ (hr.step_stopFail hs.played.refusedWrite hp rfl), run_zero]
  rfl

end

/-! ## The commands that are one frame -/

/-- The register writes of a bus command's rule for `frame_ok` (R81 to R84, 44_device_control.md R140 to R142). -/
def finalWrites : Instr → State → State
  | .rdreg _ _ n | .rdnr _ n => (State.storeRead · n.toNat)
  | .getur => (State.storeRead · 1)
  | .wrreg _ _ _ | .wrcmd _ _ | .setur _ | .srst | .crc8 _ | .pack | .convt | .convh | .meast | .meash => id

section
variable {s : State} {i : Instr} {d : Nat → Byte} {ms post : List Micro} {as : List Ack} {bs : List Byte} {b : Byte}
  {c : Cause}

theorem exec_eq_primCommand (hi : startPhase i = .prim) :
    exec i s = primCommand (firstFrame i) s (finalWrites i) := by
  cases i with
  | rdreg | rdnr | wrreg | wrcmd | getur | setur | srst => rfl
  | crc8 | pack | convt | convh | meast | meash => cases hi

theorem exec_eq_frameStep (hi : startPhase i = .prim) (hp : s.phase = .prim) :
    exec i s = frameStep (firstFrame i) s (fun s => (finalWrites i s).completeOk) State.raiseBus := by
  rw [exec_eq_primCommand hi, primCommand, inPhase, if_pos hp]

theorem runsFrame_prim (hwf : i.wf = true) (hi : startPhase i = .prim) :
    RunsFrame i .prim (firstFrame i) (fun s => (finalWrites i s).completeOk) State.raiseBus :=
  ⟨firstFrame_wellShaped hwf (by simp [hi]), fun _ => exec_eq_frameStep hi⟩

/-- The final `stop()` of a bus command. -/
theorem exec_stopOk (hi : startPhase i = .prim) (hp : s.phase = .prim) (h : s.NextCallReturns)
    (hm : microAt (firstFrame i) s.upc = some .stopOk) :
    exec i s = .next (finalWrites i s.spendCall.callStop).completeOk := by
  rw [exec_eq_frameStep hi hp, frameStep_stopOk hm h]

/-- A bus command whose every byte is acknowledged, from acceptance to its successful completion. -/
theorem run_command_ok (hwf : i.wf = true) (hi : startPhase i = .prim) (hhost : s.env.host = [])
    (hret : s.AllCallsReturn) (hf : firstFrame i = ms ++ [Micro.stopOk]) (hmid : ∀ m ∈ ms, m.Middle)
    (hscript : s.Scripted d ms as bs) :
    Host.Core.run core (ms.length + 1) (s.accept (encode i) i) =
      .next (finalWrites i ((s.accept (encode i) i).played d ms as bs).callStop).completeOk :=
  (runsFrame_prim hwf hi).run_ok (.accept hwf hhost hret) hi rfl hf hmid ⟨hscript.acks, hscript.bytes⟩

/-- A bus command whose byte `b` is refused, from acceptance to BusError. -/
theorem run_command_refused (hwf : i.wf = true) (hi : startPhase i = .prim) (hhost : s.env.host = [])
    (hret : s.AllCallsReturn) (hf : firstFrame i = ms ++ Micro.write b c :: post) (hmid : ∀ m ∈ ms, m.Middle)
    (hscript : s.Scripted d ms (.nack :: as) bs) :
    Host.Core.run core (ms.length + 2) (s.accept (encode i) i) =
      .next ((((s.accept (encode i) i).played d ms (.nack :: as) bs).refusedWrite b c as).callStop.raiseBus c) :=
  (runsFrame_prim hwf hi).run_refused (.accept hwf hhost hret) hi rfl hf hmid ⟨hscript.acks, hscript.bytes⟩

end

/-! ## What a read loop receives -/

section
variable {d : Nat → Byte} {i n : Nat} {data : List Byte}

theorem lenOk_bounds {n : Byte} (h : lenOk n = true) : 1 ≤ n.toNat ∧ n.toNat ≤ 3 := by
  simpa [lenOk] using h

theorem firstBytes_eq (b : Buf) (h1 : 1 ≤ n) (h3 : n ≤ 3) :
    b.firstBytes n = ⟨b.b0, if 2 ≤ n then b.b1 else 0, if n = 3 then b.b2 else 0⟩ := by
  interval_cases n <;> rfl

theorem readLoop_acks : (readLoop i n).flatMap Micro.acks = [] := by
  induction n generalizing i with
  | zero => rfl
  | succ n ih =>
    have hanswer : (if n = 0 then Micro.sendNack else .sendAck).acks = [] := by split <;> rfl
    simp only [readLoop, List.flatMap_cons, hanswer, ih]
    rfl

theorem readLoop_bytes_range : (readLoop i n).flatMap (Micro.bytes d) = (List.range' i n).map d := by
  induction n generalizing i with
  | zero => rfl
  | succ n ih =>
    have hanswer : (if n = 0 then Micro.sendNack else .sendAck).bytes d = [] := by split <;> rfl
    simp only [readLoop, List.flatMap_cons, hanswer, ih]
    rfl

/-- A read loop as long as the data uses up exactly the data. -/
theorem readLoop_bytes (hlen : data.length = n) : (readLoop 0 n).flatMap (Micro.bytes (data.getD · 0)) = data := by
  subst hlen
  rw [readLoop_bytes_range]
  exact List.ext_getElem (by simp) fun k _ hk => by simp [hk]

/-- The calls of a read loop, byte after byte (R86, R88). -/
theorem readLoop_calls :
    (readLoop i n).map (Micro.call d) = ((List.range n).map fun j =>
      [Call.readByte (d (i + j)), if j + 1 < n then .sendAck else .sendNack]).flatten := by
  induction n generalizing i with
  | zero => rfl
  | succ n ih =>
    have hanswer : (if n = 0 then Micro.sendNack else .sendAck).call d =
        if 0 + 1 < n + 1 then Call.sendAck else .sendNack := by
      cases n <;> rfl
    have hread : (Micro.read i).call d = .readByte (d i) := rfl
    simp [readLoop, hread, hanswer, ih, List.range_succ_eq_map, Function.comp_def, Nat.add_assoc, Nat.add_comm 1]

/-- The first `n` bytes of the working buffer after a read loop of `n` bytes are the bytes received. -/
theorem readLoop_store (b : Buf) (h1 : 1 ≤ n) (h3 : n ≤ 3) (hd : ∀ k, n ≤ k → d k = 0) :
    ((readLoop 0 n).foldl (Micro.store d) b).firstBytes n = ⟨d 0, d 1, d 2⟩ := by
  interval_cases n <;> simp [readLoop, Micro.store, Buf.set, Buf.firstBytes, hd]

end

/-! ## The obligations -/

/-- Settles O24, by writing the primitive out at each of the four parameters. -/
theorem framesAreInstancesOfOnePrimitive : Obligations.FramesAreInstancesOfOnePrimitive :=
  fun _ _ _ _ => ⟨rfl, rfl, rfl, rfl⟩

/-- Settles O23: the heads of the two frames stand written out, and from the read loop on the table is
`microAt_readFrame`. -/
theorem readFrameTables : Obligations.ReadFrameTables := by
  intro a r n j _ hn hj
  have hreg := microAt_readFrame (frameRdreg_eq a r n) (by simp [headRdreg, abortUpc]; omega)
  have hnr := microAt_readFrame (frameRdnr_eq a n) (by simp [headRdnr, abortUpc]; omega)
  obtain ⟨hregLoop, hregStop, hregNone⟩ := hreg
  obtain ⟨hnrLoop, hnrStop, hnrNone⟩ := hnr
  obtain ⟨hregRead, hregAnswer⟩ := hregLoop j hj
  obtain ⟨hnrRead, hnrAnswer⟩ := hnrLoop j hj
  have hregHead (u : Nat) (hu : u < 5) : microAt (frameRdreg a r n) u = (headRdreg a r)[u]? := by
    rw [microAt_of_ne (by simp [abortUpc]; omega), frameRdreg_eq, List.getElem?_append_left hu]
  have hnrHead (u : Nat) (hu : u < 2) : microAt (frameRdnr a n) u = (headRdnr a)[u]? := by
    rw [microAt_of_ne (by simp [abortUpc]; omega), frameRdnr_eq, List.getElem?_append_left hu]
  exact ⟨rfl, hregHead 1 (by omega), rfl, rfl, hregHead 4 (by omega), hregRead, hregAnswer, hregStop, rfl, hregNone,
    rfl, hnrHead 1 (by omega), hnrRead, hnrAnswer, hnrStop, rfl, hnrNone⟩

/-- Settles O21: a micro-step with a scripted answer is `State.played` or, refused, `State.refusedWrite`. -/
theorem microStepEffects : Obligations.MicroStepEffects := by
  intro frame s onOk onFail hret env
  have hplayed {m : Micro} {as : List Ack} {bs : List Byte} (d : Nat → Byte) (hm : microAt frame s.upc = some m)
      (hok : m ≠ .stopOk) (hfail : m ≠ .stopFail) (hscript : s.Scripted d [m] as bs) :
      frameStep frame s onOk onFail = .next (s.spendCall.played d [m] as bs) := by
    rw [frameStep_running hm hok hfail hret,
      microState_eq_played hok hfail (s := s.spendCall) ⟨hscript.acks, hscript.bytes⟩]
  refine ⟨fun hm => ?_, fun b c as hm ha => ?_, fun b c as hm ha => ?_, fun i b bs hm hi hb => ?_, fun hm => ?_,
    fun hm => ?_⟩
  · exact hplayed (fun _ => 0) hm (by simp) (by simp) ⟨rfl, rfl⟩
  · exact hplayed (fun _ => 0) hm (by simp) (by simp) ⟨ha, rfl⟩
  · rw [frameStep_running hm (by simp) (by simp) hret, microState_eq_refusedWrite (s := s.spendCall) ha]
    rfl
  · rw [hplayed (fun _ => b) hm (by simp) (by simp) ⟨rfl, hb⟩]
    interval_cases i <;> rfl
  · exact hplayed (fun _ => 0) hm (by simp) (by simp) ⟨rfl, rfl⟩
  · exact hplayed (fun _ => 0) hm (by simp) (by simp) ⟨rfl, rfl⟩

/-- Settles O22: with its script empty the answer of the step is the free value, and the step is answered whichever it
is. -/
theorem unscriptedAnswersAreFree : Obligations.UnscriptedAnswersAreFree := by
  intro frame s onOk onFail hret
  constructor
  · intro b c hm ha answer
    have hanswer : s.ackAnswer = answer := by simp [State.ackAnswer, ha, answer]
    refine ⟨_, frameStep_write hm hret, ?_⟩
    rw [hanswer]
    cases hfree : answer <;> simp [State.afterWrite, abortUpc, hanswer, hfree, ha]
  · intro i hm hi hb byte
    have hbyte : s.byteAnswer = byte := by simp [State.byteAnswer, hb, byte]
    refine ⟨_, frameStep_read hm hret, ?_⟩
    interval_cases i <;> simp [hb, hbyte, Buf.get, Buf.set]

/-- Settles O25: the final `stop()` stands after the read loop (`microAt_readFrame`), and its step is `exec_stopOk`. -/
theorem readCommandsComplete : Obligations.ReadCommandsComplete := by
  intro s a r n hn hp hret done
  obtain ⟨hpos, hle⟩ := lenOk_bounds hn
  have hcompletes (i : Instr) {head : List Micro} {m : Nat} (hi : startPhase i = .prim)
      (hw : finalWrites i = (State.storeRead · m)) (h1 : 1 ≤ m) (h3 : m ≤ 3)
      (hf : firstFrame i = head ++ (readLoop 0 m ++ [Micro.stopOk])) (hhead : head.length ≤ 5)
      (hu : s.upc = head.length + 2 * m) : exec i s = .next (done m) := by
    obtain ⟨-, hstop, -⟩ := microAt_readFrame hf (by simp [abortUpc]; omega)
    rw [exec_stopOk hi hp hret (by rw [hu, hstop]), hw]
    simp only [done, ← firstBytes_eq s.t h1 h3]
    rfl
  exact ⟨hcompletes (.rdreg a r n) rfl rfl hpos hle (frameRdreg_eq a r _) le_rfl,
    hcompletes (.rdnr a n) rfl rfl hpos hle (frameRdnr_eq a _) (by simp [headRdnr]),
    hcompletes .getur rfl rfl le_rfl (by omega) (frameRdreg_eq _ _ 1) le_rfl⟩

/-- Settles O26: the step of the final `stop()` is `exec_stopOk`, and these commands write nothing more. -/
theorem writeCommandsComplete : Obligations.WriteCommandsComplete := by
  intro s a r d hp hret done
  have hcompletes (i : Instr) (hi : startPhase i = .prim) (hw : finalWrites i = id)
      (hm : microAt (firstFrame i) s.upc = some .stopOk) : exec i s = .next done := by
    rw [exec_stopOk hi hp hret hm, hw]
    rfl
  exact ⟨fun hu => hcompletes (.wrreg a r d) rfl rfl (hu ▸ rfl),
    fun hu => hcompletes (.wrcmd a r) rfl rfl (hu ▸ rfl),
    fun hu => hcompletes (.setur d) rfl rfl (hu ▸ rfl),
    fun hu => hcompletes .srst rfl rfl (hu ▸ rfl)⟩

/-- Settles O44: each command is its frame with every byte acknowledged (`run_command_ok`), and its read loop stores the
scripted bytes. -/
theorem readCommandsRunToSuccess : Obligations.ReadCommandsRunToSuccess := by
  intro s a r n data rest as hn hlen hhost hret hbytes d address loop completed rdregTrace
  obtain ⟨hpos, hle⟩ := lenOk_bounds hn
  have hruns (steps : Nat) (i : Instr) (head : List Micro) (hwf : i.wf = true) (hi : startPhase i = .prim)
      (hw : finalWrites i = (State.storeRead · n.toNat))
      (hf : firstFrame i = head ++ (readLoop 0 n.toNat ++ [Micro.stopOk])) (hmid : ∀ m ∈ head, m.Middle)
      (hacks : s.env.acks = head.flatMap Micro.acks ++ as) (hnone : head.flatMap (Micro.bytes d) = [])
      (hsteps : steps = head.length + 2 * n.toNat + 1) :
      ∃ t, Host.Core.run core steps (s.accept (encode i) i) = .next t ∧
        completed i (head.map (Micro.call d) ++ (loop ++ [Call.stop])) t := by
    have hloop : (readLoop 0 n.toNat).flatMap (Micro.bytes d) = data := readLoop_bytes hlen
    have hscript : s.Scripted d (head ++ readLoop 0 n.toNat) as rest :=
      ⟨by simp [readLoop_acks, hacks], by rw [List.flatMap_append, hnone, hloop, hbytes, List.nil_append]⟩
    have hallMid : ∀ m ∈ head ++ readLoop 0 n.toNat, m.Middle := by
      simpa [or_imp, forall_and] using ⟨hmid, readLoop_middle⟩
    have hrun := run_command_ok hwf hi hhost hret (by rw [hf, List.append_assoc]) hallMid hscript
    rw [List.length_append, readLoop_length, ← hsteps, hw] at hrun
    have hd : ∀ k, n.toNat ≤ k → d k = 0 := fun k hk => List.getD_eq_default _ _ (hlen ▸ hk)
    refine ⟨_, hrun, ?_⟩
    simp [completed, State.played, readLoop_store _ hpos hle hd, readLoop_calls, loop]
  refine ⟨fun ha => ⟨?_, ?_⟩, fun ha => ?_⟩
  · exact hruns _ (.rdreg a r n) (headRdreg a r) hn rfl rfl (frameRdreg_eq a r _)
      (by simp [headRdreg, Micro.Middle]) ha rfl (by simp [headRdreg]; omega)
  · rintro rfl
    exact hruns _ .getur (headRdreg _ _) rfl rfl rfl (frameRdreg_eq _ _ 1)
      (by simp [headRdreg, Micro.Middle]) ha rfl rfl
  · exact hruns _ (.rdnr a n) (headRdnr a) hn rfl rfl (frameRdnr_eq a _)
      (by simp [headRdnr, Micro.Middle]) ha rfl (by simp [headRdnr]; omega)

/-- Settles O45: each command is its frame with every byte acknowledged (`run_command_ok`). -/
theorem writeCommandsRunToSuccess : Obligations.WriteCommandsRunToSuccess := by
  intro s a r d as hhost hret completed runs aw dw
  have hruns (i : Instr) {ms : List Micro} (hwf : i.wf = true) (hi : startPhase i = .prim)
      (hw : finalWrites i = id) (hf : firstFrame i = ms ++ [Micro.stopOk]) (hmid : ∀ m ∈ ms, m.Middle)
      (hscript : s.Scripted (fun _ => 0) ms as s.env.bytes) :
      runs (ms.length + 1) i (ms.map (Micro.call fun _ => 0) ++ [Call.stop]) := by
    have hrun := run_command_ok hwf hi hhost hret hf hmid hscript
    rw [hw] at hrun
    refine ⟨_, hrun, ?_⟩
    simp [completed, State.played]
  refine ⟨fun ha => ⟨?_, ?_⟩, fun ha => ⟨?_, ?_⟩⟩
  · exact hruns (.wrreg a r d) (ms := [_, _, _, _]) rfl rfl rfl (frameWrreg_eq a r d) (by simp [Micro.Middle]) ⟨ha, rfl⟩
  · exact hruns (.setur d) (ms := [_, _, _, _]) rfl rfl rfl (frameWrreg_eq _ _ d) (by simp [Micro.Middle]) ⟨ha, rfl⟩
  · exact hruns (.wrcmd a r) (ms := [_, _, _]) rfl rfl rfl (frameWrcmd_eq a r) (by simp [Micro.Middle]) ⟨ha, rfl⟩
  · exact hruns .srst (ms := [_, _, _]) rfl rfl rfl (frameWrcmd_eq _ _) (by simp [Micro.Middle]) ⟨ha, rfl⟩

/-- Settles O46: each row is its frame up to the refused byte, then the abort step (`run_command_refused`). -/
theorem refusedByteEndsCommandInBusError : Obligations.RefusedByteEndsCommandInBusError := by
  intro s a r d n as hn hhost hret aw ar fails
  have hfails (i : Instr) {ms post : List Micro} {b : Byte} {c : Cause} (hwf : i.wf = true)
      (hi : startPhase i = .prim) (hf : firstFrame i = ms ++ Micro.write b c :: post) (hmid : ∀ m ∈ ms, m.Middle)
      (hscript : s.Scripted (fun _ => 0) ms (.nack :: as) s.env.bytes) :
      fails (ms.length + 2) i c (ms.map (Micro.call fun _ => 0) ++ [Call.writeByte b .nack, Call.stop]) := by
    have hrun := run_command_refused hwf hi hhost hret hf hmid hscript
    refine ⟨_, hrun, ?_⟩
    simp [State.played, State.refusedWrite, Status.reset]
  refine ⟨fun ha => ⟨?_, ?_, ?_, ?_⟩, fun ha => ⟨?_, ?_, ?_⟩, fun ha => ⟨?_, ?_⟩⟩
  · exact hfails (.rdreg a r n) (ms := [_]) hn rfl (frameRdreg_eq a r _) (by simp [Micro.Middle]) ⟨ha, rfl⟩
  · exact hfails (.wrreg a r d) (ms := [_]) rfl rfl (frameWrreg_eq a r d) (by simp [Micro.Middle]) ⟨ha, rfl⟩
  · exact hfails (.wrcmd a r) (ms := [_]) rfl rfl (frameWrcmd_eq a r) (by simp [Micro.Middle]) ⟨ha, rfl⟩
  · exact hfails (.rdnr a n) (ms := [_]) hn rfl (frameRdnr_eq a _) (by simp [Micro.Middle]) ⟨ha, rfl⟩
  · exact hfails (.rdreg a r n) (ms := [_, _]) hn rfl (frameRdreg_eq a r _) (by simp [Micro.Middle]) ⟨ha, rfl⟩
  · exact hfails (.wrreg a r d) (ms := [_, _]) rfl rfl (frameWrreg_eq a r d) (by simp [Micro.Middle]) ⟨ha, rfl⟩
  · exact hfails (.wrcmd a r) (ms := [_, _]) rfl rfl (frameWrcmd_eq a r) (by simp [Micro.Middle]) ⟨ha, rfl⟩
  · exact hfails (.rdreg a r n) (ms := [_, _, _, _]) hn rfl (frameRdreg_eq a r _) (by simp [Micro.Middle]) ⟨ha, rfl⟩
  · exact hfails (.wrreg a r d) (ms := [_, _, _]) rfl rfl (frameWrreg_eq a r d) (by simp [Micro.Middle]) ⟨ha, rfl⟩

end Sys2Proof.Machine
end

section
/-! PROOFS. The family of 41_integrity_check.md: a round is linear over XOR and has kernel 0, the fold inherits both, and
the step of CRC8. -/

namespace Sys2Proof.Machine

/-! ## The round -/

section
variable (a b : Byte)

/-- The 8-bit spelling of the round (R100): the polynomial less its leading bit is XORed in. -/
theorem crcRound_eq : crcRound a = (a <<< 1) ^^^ if a.msb then 0x31 else 0 := by
  unfold crcRound Config.crcPoly
  split
  · rw [BitVec.setWidth_xor, BitVec.setWidth_shiftLeft_of_le (by decide), BitVec.setWidth_setWidth_of_le _ (by decide),
      BitVec.setWidth_eq]
    rfl
  · rw [BitVec.ofNat_eq_ofNat, BitVec.xor_zero]

theorem crcRound_zero : crcRound 0 = 0 := by decide

theorem crcRound_xor : crcRound (a ^^^ b) = crcRound a ^^^ crcRound b := by
  have hpoly : (if (a ^^^ b).msb then (0x31 : Byte) else 0) =
      (if a.msb then 0x31 else 0) ^^^ if b.msb then 0x31 else 0 := by
    cases ha : a.msb <;> cases hb : b.msb <;> simp [ha, hb]
  rw [crcRound_eq, crcRound_eq, crcRound_eq, hpoly, BitVec.shiftLeft_xor_distrib]
  ac_rfl

/-- A round loses nothing: bit 0 of the result is the bit shifted out, for the polynomial is odd. -/
theorem eq_zero_of_crcRound_eq_zero {a : Byte} (h : crcRound a = 0) : a = 0 := by
  rw [crcRound_eq] at h
  cases hmsb : a.msb with
  | true =>
    rw [hmsb] at h
    simpa using congrArg (BitVec.getLsbD · 0) h
  | false =>
    have hshift : a <<< 1 = 0 := by simpa [hmsb] using h
    rw [BitVec.msb_eq_false_iff_two_mul_lt] at hmsb
    bv_omega

theorem crcRound_injective : Function.Injective crcRound := fun a b h =>
  BitVec.xor_eq_zero_iff.mp (eq_zero_of_crcRound_eq_zero (by rw [crcRound_xor, h]; exact BitVec.xor_self))

end

/-! ## The rounds of a byte -/

section
variable (a a' b b' : Byte) (n : Nat)

theorem crcRounds_eq_iterate : crcRounds n = crcRound^[n] := by
  induction n with
  | zero => rfl
  | succ n ih => exact congrArg (· ∘ crcRound) ih

theorem crcRounds_zero : crcRounds n 0 = 0 := by
  rw [crcRounds_eq_iterate, Function.iterate_fixed crcRound_zero]

theorem crcRounds_xor : crcRounds n (a ^^^ b) = crcRounds n a ^^^ crcRounds n b := by
  rw [crcRounds_eq_iterate]
  exact Function.Semiconj₂.iterate crcRound_xor n a b

theorem crcRounds_injective : Function.Injective (crcRounds n) := by
  rw [crcRounds_eq_iterate]
  exact crcRound_injective.iterate n

/-- The byte step is linear in the accumulator and the byte together. -/
theorem crcByte_xor : crcByte (a ^^^ a') (b ^^^ b') = crcByte a b ^^^ crcByte a' b' := by
  unfold crcByte
  rw [← crcRounds_xor]
  congr 1
  ac_rfl

/-- A byte that equals the accumulator cancels it. -/
@[simp] theorem crcByte_self : crcByte a a = 0 := by
  rw [crcByte, BitVec.xor_self]
  exact crcRounds_zero 8

theorem crcByte_left_injective : Function.Injective (crcByte · b) := fun _ _ h =>
  (BitVec.xor_left_inj b).mp (crcRounds_injective 8 h)

theorem crcByte_right_injective : Function.Injective (crcByte a) := fun _ _ h =>
  (BitVec.xor_right_inj a).mp (crcRounds_injective 8 h)

end

/-! ## The fold -/

section
variable {x y : List Byte} {a b : Byte}

@[simp] theorem crc8_nil : crc8 [] = 0 := rfl

@[simp] theorem crc8_concat : crc8 (x ++ [b]) = crcByte (crc8 x) b := by
  simp [crc8]

/-- The fold is linear from any two accumulators. -/
theorem foldl_crcByte_xor (hlen : x.length = y.length) :
    (List.zipWith (· ^^^ ·) x y).foldl crcByte (a ^^^ b) = x.foldl crcByte a ^^^ y.foldl crcByte b := by
  induction x generalizing y a b with
  | nil =>
    obtain rfl := List.length_eq_zero_iff.mp hlen.symm
    rfl
  | cons c x ih =>
    cases y with
    | nil => cases hlen
    | cons d y =>
      have hstep := ih (Nat.succ.inj hlen) (a := crcByte a c) (b := crcByte b d)
      rwa [← crcByte_xor] at hstep

theorem foldl_crcByte_injective (x : List Byte) : Function.Injective (x.foldl crcByte) := by
  induction x with
  | nil => exact Function.injective_id
  | cons b x ih => exact ih.comp (crcByte_left_injective b)

/-- A change of one byte, whatever stands before and after it, changes the checksum. -/
theorem crc8_one_byte_inj : crc8 (x ++ a :: y) = crc8 (x ++ b :: y) ↔ a = b := by
  refine ⟨fun h => ?_, fun h => by rw [h]⟩
  rw [crc8, crc8, List.foldl_append, List.foldl_append] at h
  exact crcByte_right_injective _ (foldl_crcByte_injective y h)

/-- Flipping bit `j` changes a byte. -/
theorem xor_bit_ne_self (b : Byte) {j : Nat} (hj : j < 8) : b ^^^ (1 <<< j) ≠ b := by
  intro h
  have hbit := congrArg (BitVec.getLsbD · j) h
  simp [hj, BitVec.getLsbD_ofNat, Nat.testBit_shiftLeft, -BitVec.getLsbD_eq_getElem] at hbit

end

/-! ## The command -/

theorem exec_crc8 {s : State} (hp : s.phase = .pure) (n : Byte) :
    exec (.crc8 n) s = .next (State.completeOk { s with
      crcVal := crc8 (s.d.bytes n.toNat)
      status := { s.status with crcOk := crc8 (s.d.bytes n.toNat) == s.d.get n.toNat } }) :=
  if_pos hp

/-! ## The obligations -/

/-- Settles O52, by the linearity of the fold from accumulators 0. -/
theorem crc8IsLinear : Obligations.Crc8IsLinear := fun _ _ hlen =>
  foldl_crcByte_xor (a := 0) (b := 0) hlen

/-- Settles O53: the byte step cancels a byte equal to the accumulator, the checksum itself or a further zero. -/
theorem crc8ResidueIsZero : Obligations.Crc8ResidueIsZero := by
  refine ⟨fun bytes => by simp, fun n => ?_⟩
  induction n with
  | zero => rfl
  | succ n ih => rw [List.replicate_succ', crc8_concat, ih, crcByte_self]

/-- Settles O54: a flip changes one byte, and the checksum tells any change of one byte (`crc8_one_byte_inj`). -/
theorem crc8DetectsSingleBitFlips : Obligations.Crc8DetectsSingleBitFlips := fun b0 b1 _ hj =>
  ⟨(crc8_one_byte_inj (x := []) (y := [b1])).not.mpr (xor_bit_ne_self b0 hj),
    (crc8_one_byte_inj (x := [b0]) (y := [])).not.mpr (xor_bit_ne_self b1 hj)⟩

/-- Settles O17: `exec_crc8` at each of the three counts. -/
theorem crc8Completes : Obligations.Crc8Completes := by
  intro s n hn hp data expected
  obtain ⟨hdata, hexpected⟩ : s.d.bytes n.toNat = data ∧ s.d.get n.toNat = expected := by
    rcases (countOk_iff n).mp hn with rfl | rfl | rfl <;> exact ⟨rfl, rfl⟩
  rw [exec_crc8 hp, hdata, hexpected, beq_eq_decide]
  rfl

/-- Settles O51: `crc8_concat`, with the model's round in the spelling of R100 and in the 8-bit one (`crcRound_eq`). -/
theorem crc8IsTheByteFold : Obligations.Crc8IsTheByteFold := by
  unfold Obligations.Crc8IsTheByteFold
  intro round round'
  have hround : round = crcRound := rfl
  refine ⟨crc8_nil, fun bytes b => ?_, fun acc => ?_⟩
  · rw [crc8_concat, crcByte, crcRounds_eq_iterate, hround]
  · rw [hround, crcRound_eq, BitVec.msb_eq_getLsbD_last]
    cases h : acc.getLsbD 7 <;> simp [round', h, -BitVec.getLsbD_eq_getElem]

/-- Settles O55, by running the model on the listed sequences. -/
theorem crc8ListedValues : Obligations.Crc8ListedValues := by
  unfold Obligations.Crc8ListedValues
  decide +kernel

end Sys2Proof.Machine
end

section
/-! PROOFS. The family of 42_conversion.md: the layout of a packed sample, the two formulas as exact integers, the rounding
to binary32 for every positive rational, and what it gives for the two readings. -/

namespace Sys2Proof.Machine

/-! ## Packing -/

/-- The parts of an append share no bit, so its number is a sum. -/
theorem append_toNat {m n : Nat} (x : BitVec m) (y : BitVec n) : (x ++ y).toNat = 2 ^ n * x.toNat + y.toNat := by
  rw [BitVec.toNat_append, ← Nat.shiftLeft_add_eq_or_of_lt y.isLt, Nat.shiftLeft_eq, Nat.mul_comm]

theorem upperSix_toNat (b : Byte) : (b.extractLsb' 2 6).toNat = b.toNat / 4 := by
  have hb := b.isLt
  rw [BitVec.extractLsb'_toNat, Nat.shiftRight_eq_div_pow]
  omega

theorem packSample_toNat (b0 b1 : Byte) : (packSample b0 b1).toNat = 256 * b0.toNat + 4 * (b1.toNat / 4) := by
  rw [packSample_eq, append_toNat, append_toNat, upperSix_toNat]
  simp only [BitVec.toNat_ofNat]
  omega

theorem statusBits_toNat (b1 : Byte) : (statusBits b1).toNat = b1.toNat % 4 := by
  rw [statusBits_eq, BitVec.extractLsb'_toNat, Nat.shiftRight_zero]

/-- The mask of R111 takes the status bits away. -/
theorem and_sampleMask_toNat (b : Byte) : (b &&& 0xFC).toNat = 4 * (b.toNat / 4) := by
  revert b
  decide +kernel

/-! ## The commands -/

section
variable {s : State} (hp : s.phase = .pure)
include hp

theorem exec_pack : exec .pack s = .next (s.storeSample s.d.b0 s.d.b1).completeOk := if_pos hp

theorem exec_convt : exec .convt s = .next (s.storeReading .temperature s.raw).completeOk := if_pos hp

theorem exec_convh : exec .convh s = .next (s.storeReading .humidity s.raw).completeOk := if_pos hp

end

/-! ## The two formulas -/

theorem abs_intCast_div (n : Int) (d : Nat) : |(n : ℚ) / d| = (n.natAbs : ℚ) / d := by
  rw [abs_div, Nat.cast_natAbs, Int.cast_abs, Nat.abs_cast]

/-- A formula of R113 or R114, in its units, is the reading of R112. -/
theorem convFx_div_unitsPer (q : Quantity) (tmp : Sample) : (convFx q tmp : ℚ) / unitsPer q = reading q tmp := by
  cases q <;> simp only [convFx, tfx, hfx, unitsPer, reading] <;> push_cast <;> ring

/-- The reading is 2^-14 or more from 0 and less than 129. -/
theorem convFx_range (q : Quantity) (tmp : Sample) :
    unitsPer q ≤ 2 ^ 14 * (convFx q tmp).natAbs ∧ (convFx q tmp).natAbs < 129 * unitsPer q := by
  have ht := tmp.isLt
  cases q <;> simp only [convFx, tfx, hfx, unitsPer] <;> omega

theorem convFx_ne_zero (q : Quantity) (tmp : Sample) : convFx q tmp ≠ 0 := by
  intro h
  have hlow := (convFx_range q tmp).1
  rw [h] at hlow
  cases q <;> simp [unitsPer] at hlow

theorem convFx_strictMono (q : Quantity) {tmp tmp' : Sample} (h : tmp.toNat < tmp'.toNat) :
    convFx q tmp < convFx q tmp' := by
  cases q <;> simp only [convFx, tfx, hfx] <;> omega

/-- R113 and R114: no formula overflows 32 bits. -/
theorem resultFxOf_toInt (q : Quantity) (tmp : Sample) : (resultFxOf q tmp).toInt = convFx q tmp := by
  have hrange := (convFx_range q tmp).2
  have hunits : unitsPer q ≤ 6553600 := by cases q <;> decide
  exact BitVec.toInt_ofInt_eq_self (by decide) (by omega) (by omega)

theorem resultFxOf_ne_zero (q : Quantity) (tmp : Sample) : resultFxOf q tmp ≠ 0 := fun h =>
  convFx_ne_zero q tmp (by rw [← resultFxOf_toInt, h]; rfl)

theorem resultFxOf_strictMono (q : Quantity) {tmp tmp' : Sample} (h : tmp.toNat < tmp'.toNat) :
    (resultFxOf q tmp).toInt < (resultFxOf q tmp').toInt := by
  simpa only [resultFxOf_toInt] using convFx_strictMono q h

theorem resultFxOf_div_unitsPer (q : Quantity) (tmp : Sample) :
    ((resultFxOf q tmp).toInt : ℚ) / unitsPer q = reading q tmp := by
  rw [resultFxOf_toInt, convFx_div_unitsPer]

theorem reading_range (q : Quantity) (tmp : Sample) : 1 / 2 ^ 14 ≤ |reading q tmp| ∧ |reading q tmp| < 129 := by
  obtain ⟨hlow, hhigh⟩ := convFx_range q tmp
  have hunits : (0 : ℚ) < unitsPer q := by cases q <;> norm_num [unitsPer]
  rw [← convFx_div_unitsPer, abs_intCast_div]
  constructor
  · rw [div_le_div_iff₀ (by norm_num) hunits]
    exact_mod_cast (by omega : 1 * unitsPer q ≤ (convFx q tmp).natAbs * 2 ^ 14)
  · rw [div_lt_iff₀ hunits]
    exact_mod_cast hhigh

/-! ## Rounding to the nearest integer -/

theorem natCast_div_eq_quotient_add {num den : Nat} (hden : 0 < den) :
    (num : ℚ) / den = (num / den : Nat) + ((num % den : Nat) : ℚ) / den := by
  have h : (num : ℚ) = den * (num / den : Nat) + (num % den : Nat) := by exact_mod_cast (Nat.div_add_mod num den).symm
  have hpos : (den : ℚ) ≠ 0 := by positivity
  field_simp
  exact h

/-- The three cases of R116's rounding: the remainder is less than, more than or exactly half of the divisor. -/
theorem roundHalfEven_nearest {num den : Nat} (hden : 0 < den) :
    |(roundHalfEven num den : ℚ) - num / den| ≤ 1 / 2 ∧
    (|(roundHalfEven num den : ℚ) - num / den| = 1 / 2 → roundHalfEven num den % 2 = 0) := by
  have hpos : (0 : ℚ) < den := by exact_mod_cast hden
  rw [natCast_div_eq_quotient_add hden]
  unfold roundHalfEven
  set quot := num / den
  set rem := num % den
  have hrem0 : 0 ≤ (rem : ℚ) / den := by positivity
  have hrem1 : (rem : ℚ) / den < 1 := by
    rw [div_lt_one hpos]
    exact_mod_cast Nat.mod_lt num hden
  split
  next hless =>
    have hhalf : (rem : ℚ) / den < 1 / 2 := by
      rw [div_lt_div_iff₀ hpos (by norm_num)]
      exact_mod_cast (by omega : rem * 2 < 1 * den)
    have herr : |(quot : ℚ) - (quot + rem / den)| < 1 / 2 := by rw [abs_lt]; constructor <;> linarith
    exact ⟨herr.le, fun h => absurd h herr.ne⟩
  next hnotLess =>
    split
    next hmore =>
      have hhalf : 1 / 2 < (rem : ℚ) / den := by
        rw [div_lt_div_iff₀ (by norm_num) hpos]
        exact_mod_cast (by omega : 1 * den < rem * 2)
      have herr : |((quot + 1 : Nat) : ℚ) - (quot + rem / den)| < 1 / 2 := by
        push_cast
        rw [abs_lt]
        constructor <;> linarith
      exact ⟨herr.le, fun h => absurd h herr.ne⟩
    next hnotMore =>
      have hhalf : (rem : ℚ) / den = 1 / 2 := by
        rw [div_eq_div_iff hpos.ne' (by norm_num)]
        exact_mod_cast (by omega : rem * 2 = 1 * den)
      refine ⟨?_, fun _ => by omega⟩
      rw [hhalf]
      rcases Nat.mod_two_eq_zero_or_one quot with h | h <;> rw [h, abs_le] <;> push_cast <;> constructor <;> linarith

/-! ## The exponent and the significand of a positive rational -/

theorem scaled_quotient_ne_zero {m d : Nat} (hm : 0 < m) (hd : 0 < d) : m * 2 ^ (Nat.log2 d + 1) / d ≠ 0 := by
  have hscale : d ≤ 2 ^ (Nat.log2 d + 1) := Nat.lt_log2_self.le
  exact (Nat.div_pos (hscale.trans (Nat.le_mul_of_pos_left _ hm)) hd).ne'

theorem binaryExponent_bounds {m d : Nat} (hm : 0 < m) (hd : 0 < d) :
    (2 : ℚ) ^ binaryExponent m d ≤ (m : ℚ) / d ∧ (m : ℚ) / d < (2 : ℚ) ^ (binaryExponent m d + 1) := by
  have hlow := Nat.log2_self_le (scaled_quotient_ne_zero hm hd)
  have hhigh := Nat.lt_log2_self (n := m * 2 ^ (Nat.log2 d + 1) / d)
  rw [Nat.le_div_iff_mul_le hd] at hlow
  rw [Nat.div_lt_iff_lt_mul hd] at hhigh
  have hpos : (0 : ℚ) < d := by exact_mod_cast hd
  rw [binaryExponent, sub_add_eq_add_sub, ← Nat.cast_add_one (R := ℤ), zpow_sub₀ two_ne_zero, zpow_sub₀ two_ne_zero]
  simp only [zpow_natCast]
  rw [div_le_div_iff₀ (by positivity) hpos, div_lt_div_iff₀ hpos (by positivity)]
  exact ⟨by exact_mod_cast hlow, by exact_mod_cast hhigh⟩

/-- The two factors of the model's quotient are one power of two with an integer exponent. -/
theorem two_pow_toNat_div (z : ℤ) : (2 : ℚ) ^ z.toNat / 2 ^ (-z).toNat = 2 ^ z := by
  rw [← zpow_natCast, ← zpow_natCast, ← zpow_sub₀ two_ne_zero]
  congr 1
  omega

/-- What the significand is rounded from. -/
theorem significand_quotient (m d : Nat) (e : ℤ) :
    ((m * 2 ^ (23 - e).toNat : Nat) : ℚ) / (d * 2 ^ (e - 23).toNat : Nat) = (m : ℚ) / d / 2 ^ e * 2 ^ 23 := by
  have hscale := two_pow_toNat_div (23 - e)
  rw [neg_sub, zpow_sub₀ two_ne_zero] at hscale
  push_cast
  rw [mul_div_mul_comm, hscale, zpow_ofNat]
  ring

theorem significand_nearest (m : Nat) {d : Nat} (hd : 0 < d) :
    |(significand m d : ℚ) - (m : ℚ) / d / 2 ^ binaryExponent m d * 2 ^ 23| ≤ 1 / 2 ∧
    (|(significand m d : ℚ) - (m : ℚ) / d / 2 ^ binaryExponent m d * 2 ^ 23| = 1 / 2 → significand m d % 2 = 0) := by
  rw [← significand_quotient]
  exact roundHalfEven_nearest (Nat.mul_pos hd (by positivity))

theorem significand_bounds {m d : Nat} (hm : 0 < m) (hd : 0 < d) :
    2 ^ 23 ≤ significand m d ∧ significand m d ≤ 2 ^ 24 := by
  obtain ⟨hlow, hhigh⟩ := binaryExponent_bounds hm hd
  obtain ⟨hbelow, habove⟩ := abs_le.mp (significand_nearest m hd).1
  rw [zpow_add₀ two_ne_zero, zpow_one] at hhigh
  have hpos : (0 : ℚ) < 2 ^ binaryExponent m d := by positivity
  have hone := (one_le_div hpos).mpr hlow
  have htwo := (div_lt_iff₀ hpos).mpr (hhigh.trans_eq (mul_comm _ _))
  constructor
  · have h : ((2 ^ 23 : Nat) : ℚ) < (significand m d + 1 : Nat) := by push_cast; linarith
    exact Nat.lt_succ_iff.mp (Nat.cast_lt.mp h)
  · have h : (significand m d : ℚ) < (2 ^ 24 + 1 : Nat) := by push_cast; linarith
    exact Nat.lt_succ_iff.mp (Nat.cast_lt.mp h)

/-! ## The pattern -/

section
variable (neg : Bool) (e : ℤ) (f : Nat)

theorem binary32Bits_msb : (binary32Bits neg e f).msb = neg := by
  unfold binary32Bits
  rw [BitVec.msb_append, if_neg (by decide), BitVec.msb_append, if_neg (by decide), BitVec.msb_ofBool]

theorem binary32Bits_exponentField : (binary32Bits neg e f).extractLsb' 23 8 = BitVec.ofNat 8 (e + 127).toNat := by
  unfold binary32Bits
  rw [BitVec.extractLsb'_append_eq_of_le le_rfl, BitVec.extractLsb'_append_eq_right]

theorem binary32Bits_fractionField : (binary32Bits neg e f).extractLsb' 0 23 = BitVec.ofNat 23 (f - 2 ^ 23) := by
  unfold binary32Bits
  exact BitVec.extractLsb'_append_eq_right

end

/-- A unit in the last place is two halves of it. -/
theorem zpow_unit_eq (e : ℤ) : (2 : ℚ) ^ (e - 23) = 2 * 2 ^ (e - 24) := by
  rw [mul_comm, ← zpow_add_one₀ two_ne_zero, sub_add]
  norm_num

/-- The word `w` is a binary32 pattern of the sign of `x` whose magnitude, of exponent `e` and significand `f`, is within
half a unit in the last place of that of `x` (R116). -/
structure RoundsTo (x : ℚ) (w : Word) (e : ℤ) (f : Nat) : Prop where
  bits   : w = binary32Bits (decide (x < 0)) e f
  normal : 2 ^ 23 ≤ f ∧ f < 2 ^ 24
  near   : |f * (2 : ℚ) ^ (e - 23) - abs x| ≤ 2 ^ (e - 24)

/-- Both branches of `fp32`: the significand rounds up to 2^24 and carries into the exponent, or it stays below. -/
theorem roundsTo_fp32 {n : Int} {d : Nat} (hn : n ≠ 0) (hd : 0 < d) :
    ∃ e f, RoundsTo ((n : ℚ) / d) (fp32 n d) e f := by
  have hm : 0 < n.natAbs := Int.natAbs_pos.mpr hn
  have hpos : (0 : ℚ) < d := by exact_mod_cast hd
  have hsign : decide (n < 0) = decide ((n : ℚ) / d < 0) := by
    rw [decide_eq_decide, div_lt_iff₀ hpos, zero_mul, Int.cast_lt_zero]
  obtain ⟨hlow, hhigh⟩ := significand_bounds hm hd
  have hnear := (significand_nearest n.natAbs hd).1
  rw [fp32, hsign]
  generalize significand n.natAbs d = f, binaryExponent n.natAbs d = e at *
  have hulp : (0 : ℚ) < 2 ^ (e - 24) := by positivity
  have herr : |f * (2 : ℚ) ^ (e - 23) - abs ((n : ℚ) / d)| ≤ 2 ^ (e - 24) := by
    have hscale : f * (2 : ℚ) ^ (e - 23) - (n.natAbs : ℚ) / d =
        (f - (n.natAbs : ℚ) / d / 2 ^ e * 2 ^ 23) * (2 * 2 ^ (e - 24)) := by
      rw [← zpow_unit_eq, sub_mul, zpow_sub₀ two_ne_zero, zpow_ofNat]
      field_simp
    rw [abs_intCast_div, hscale, abs_mul, abs_of_pos (mul_pos two_pos hulp)]
    linarith [mul_le_mul_of_nonneg_right hnear (mul_pos two_pos hulp).le]
  split
  next hcarry =>
    refine ⟨e + 1, 2 ^ 23, rfl, by norm_num, ?_⟩
    have hval : ((2 ^ 23 : Nat) : ℚ) * 2 ^ (e + 1 - 23) = f * 2 ^ (e - 23) := by
      rw [hcarry, add_sub_right_comm, zpow_add₀ two_ne_zero]
      push_cast
      ring
    rw [hval]
    exact herr.trans (zpow_le_zpow_right₀ one_le_two (by omega))
  next hstays => exact ⟨e, f, rfl, ⟨hlow, by omega⟩, herr⟩

namespace RoundsTo

section
variable {x : ℚ} {w : Word} {e : ℤ} {f : Nat} (h : RoundsTo x w e f)
include h

theorem msb : w.msb = true ↔ x < 0 := by
  rw [h.bits, binary32Bits_msb, decide_eq_true_iff]

/-- The magnitude is in the binade of the exponent, up to the half unit. -/
theorem abs_bounds : 2 ^ e - 2 ^ (e - 24) ≤ |x| ∧ |x| < 2 ^ (e + 1) := by
  obtain ⟨hbelow, habove⟩ := abs_le.mp h.near
  have hlow : (2 ^ 23 : ℚ) ≤ f := by exact_mod_cast h.normal.1
  have hhigh : (f : ℚ) + 1 ≤ 2 ^ 24 := by exact_mod_cast h.normal.2
  have hulp : (0 : ℚ) < 2 ^ (e - 24) := by positivity
  have hbinade : (2 : ℚ) ^ e = 2 ^ 24 * 2 ^ (e - 24) := by
    rw [zpow_sub₀ two_ne_zero, zpow_ofNat]
    field_simp
  rw [zpow_add_one₀ two_ne_zero, hbinade]
  rw [zpow_unit_eq] at hbelow habove
  constructor <;> nlinarith

theorem exponent_range (hlow : 1 / 2 ^ 14 ≤ |x|) (hhigh : |x| < 129) : -14 ≤ e ∧ e ≤ 7 := by
  obtain ⟨hbelow, habove⟩ := h.abs_bounds
  constructor
  · have hlt : (2 : ℚ) ^ (-14 : ℤ) < 2 ^ (e + 1) := by
      refine lt_of_le_of_lt ?_ habove
      simpa using hlow
    have := (zpow_lt_zpow_iff_right₀ one_lt_two).mp hlt
    omega
  · by_contra hge
    have hbig : (2 : ℚ) ^ (8 : ℤ) ≤ 2 ^ e := zpow_le_zpow_right₀ one_le_two (by omega)
    have hsplit : (2 : ℚ) ^ (e - 24) = 2 ^ e / 2 ^ 24 := by rw [zpow_sub₀ two_ne_zero, zpow_ofNat]
    rw [hsplit] at hbelow
    norm_num at hbig
    linarith

theorem exponentField (hlow : -126 ≤ e) (hhigh : e ≤ 127) : ((w.extractLsb' 23 8).toNat : ℤ) - 127 = e := by
  rw [h.bits, binary32Bits_exponentField, BitVec.toNat_ofNat, Nat.mod_eq_of_lt (by omega)]
  omega

theorem value_eq (hlow : -126 ≤ e) (hhigh : e ≤ 127) :
    binary32Value w = (if x < 0 then -1 else 1) * (f * 2 ^ (e - 23)) := by
  obtain ⟨hf, hf'⟩ := h.normal
  have hfraction : ((w.extractLsb' 0 23).toNat : ℚ) = f - 2 ^ 23 := by
    rw [h.bits, binary32Bits_fractionField, BitVec.toNat_ofNat, Nat.mod_eq_of_lt (by omega), Nat.cast_sub hf]
    norm_num
  rw [binary32Value, h.exponentField hlow hhigh, hfraction, zpow_sub₀ two_ne_zero, zpow_ofNat]
  simp only [h.msb]
  field_simp
  ring

theorem value_near (hlow : -126 ≤ e) (hhigh : e ≤ 127) : |binary32Value w - x| ≤ 2 ^ (e - 24) := by
  rw [h.value_eq hlow hhigh]
  have hnear := h.near
  split
  next hx =>
    rw [abs_of_neg hx] at hnear
    rw [← abs_neg]
    convert hnear using 2
    ring
  next hx =>
    rw [abs_of_nonneg (not_lt.mp hx)] at hnear
    rwa [one_mul]

/-- A number on the grid of its binade is met exactly, for two different points of the grid are a unit apart. -/
theorem value_exact (hlow : -126 ≤ e) (hhigh : e ≤ 127) {c : Nat} (hc : |x| = c * 2 ^ (e - 23)) :
    binary32Value w = x := by
  have hunit : (0 : ℚ) < 2 ^ (e - 24) := by positivity
  have hgrid : |(f : ℚ) - c| * (2 * 2 ^ (e - 24)) ≤ 2 ^ (e - 24) := by
    have hnear := h.near
    rwa [hc, ← sub_mul, abs_mul, zpow_unit_eq, abs_of_pos (mul_pos two_pos hunit)] at hnear
  have hlt : |((f : ℤ) - c : ℤ)| < 1 := by
    have : |(f : ℚ) - c| < 1 := by nlinarith
    exact_mod_cast this
  have hfc : (f : ℚ) = c := by
    have := Int.abs_lt_one_iff.mp hlt
    exact_mod_cast (by omega : (f : ℤ) = c)
  rw [h.value_eq hlow hhigh, hfc, ← hc]
  split
  next hx => rw [abs_of_neg hx]; ring
  next hx => rw [abs_of_nonneg (not_lt.mp hx), one_mul]

end

end RoundsTo

/-- The result of a sample, with the exponent in the range of R116. -/
theorem resultFpOf_roundsTo (q : Quantity) (tmp : Sample) :
    ∃ e f, RoundsTo (reading q tmp) (resultFpOf q tmp) e f ∧ -14 ≤ e ∧ e ≤ 7 := by
  obtain ⟨hlow, hhigh⟩ := reading_range q tmp
  have hunits : 0 < unitsPer q := by cases q <;> decide
  obtain ⟨e, f, h⟩ := roundsTo_fp32 (convFx_ne_zero q tmp) hunits
  rw [convFx_div_unitsPer] at h
  exact ⟨e, f, h, h.exponent_range hlow hhigh⟩

/-- A value of a sample is within 2^-17 of the reading. -/
theorem resultFpOf_near (q : Quantity) (tmp : Sample) :
    |binary32Value (resultFpOf q tmp) - reading q tmp| ≤ 1 / 2 ^ 17 := by
  obtain ⟨e, f, h, hlow, hhigh⟩ := resultFpOf_roundsTo q tmp
  refine (h.value_near (by omega) (by omega)).trans ?_
  calc (2 : ℚ) ^ (e - 24) ≤ 2 ^ (-17 : ℤ) := zpow_le_zpow_right₀ one_le_two (by omega)
    _ = 1 / 2 ^ 17 := by norm_num

/-! ## The obligations -/

/-- Settles O58, by the bounds of the exponent and the three cases of the rounding. -/
theorem binary32RoundsToNearestEven : Obligations.Binary32RoundsToNearestEven := fun m _ hm hd =>
  have ⟨hlow, hhigh⟩ := binaryExponent_bounds hm hd
  have ⟨hf, hf'⟩ := significand_bounds hm hd
  ⟨hlow, hhigh, hf, hf', significand_nearest m hd⟩

/-- Settles O59: a reading is between 2^-14 and 129, so its exponent is in -14 .. 7 and its pattern a normal number. -/
theorem readingIsNearestBinary32 : Obligations.ReadingIsNearestBinary32 := by
  intro q tmp w e
  obtain ⟨e', f, h, hlow, hhigh⟩ := resultFpOf_roundsTo q tmp
  obtain rfl : e = e' := h.exponentField (by omega) (by omega)
  exact ⟨hhigh, hlow, h.msb, h.value_near (by omega) (by omega)⟩

/-- Settles O60: a humidity is a multiple of 2^-16, and a unit in the last place is no more than that; two temperatures are
further apart than twice the error of one. -/
theorem humidityExactTemperatureIncreasing : Obligations.HumidityExactTemperatureIncreasing := by
  refine ⟨fun tmp => ?_, fun tmp tmp' hlt => ?_⟩
  · obtain ⟨e, f, h, hlow, hhigh⟩ := resultFpOf_roundsTo .humidity tmp
    refine h.value_exact (by omega) (by omega) (c := (hfx tmp).natAbs * 2 ^ (7 - e).toNat) ?_
    have hpow : (2 : ℚ) ^ (7 - e).toNat * 2 ^ (e - 23) = 1 / 65536 := by
      rw [← zpow_natCast, ← zpow_add₀ two_ne_zero, Int.toNat_of_nonneg (by omega)]
      norm_num
    rw [← convFx_div_unitsPer, abs_intCast_div, Nat.cast_mul, mul_assoc, Nat.cast_pow, Nat.cast_ofNat, hpow]
    norm_num [unitsPer, convFx]
    ring
  · have hnear := abs_le.mp (resultFpOf_near .temperature tmp)
    have hnear' := abs_le.mp (resultFpOf_near .temperature tmp')
    have hstep : (tmp.toNat : ℚ) + 1 ≤ tmp'.toNat := by exact_mod_cast hlt
    simp only [reading] at hnear hnear'
    linarith [hnear.2, hnear'.1]

/-- Settles O56: the formula fits into 32 bits (`resultFxOf_toInt`), and the model gives the listed values. -/
theorem temperatureFixedPointIsExact : Obligations.TemperatureFixedPointIsExact := by
  refine ⟨fun tmp => ⟨resultFxOf_toInt _ tmp, resultFxOf_div_unitsPer _ tmp, resultFxOf_ne_zero _ tmp⟩,
    fun _ _ => resultFxOf_strictMono _, ?_⟩
  decide

/-- Settles O57, by the same lemmas as O56, at the other quantity. -/
theorem humidityFixedPointIsExact : Obligations.HumidityFixedPointIsExact := by
  refine ⟨fun tmp => ⟨resultFxOf_toInt _ tmp, resultFxOf_div_unitsPer _ tmp, resultFxOf_ne_zero _ tmp⟩,
    fun _ _ => resultFxOf_strictMono _, ?_⟩
  decide

/-- Settles O18: the packed number is `256 b0 + 4 (b1 / 4)`, and the status bits are `b1 % 4`. -/
theorem packedSampleLayout : Obligations.PackedSampleLayout := by
  intro b0 b1
  have hb0 := b0.isLt
  have hb1 := b1.isLt
  refine ⟨packSample_eq b0 b1, ?_, ?_, ?_, statusBits_eq b1, ?_⟩ <;>
    simp only [packSample_toNat, statusBits_toNat, and_sampleMask_toNat] <;> omega

/-- Settles O19, by `exec_pack` and the layouts of R111. -/
theorem packCompletes : Obligations.PackCompletes := by
  intro s hp
  rw [exec_pack hp, State.storeSample, packSample_eq, statusBits_eq]
  rfl

/-- Settles O20, by `exec_convt` and `exec_convh`. -/
theorem conversionsComplete : Obligations.ConversionsComplete := fun _ hp => ⟨exec_convt hp, exec_convh hp⟩

end Sys2Proof.Machine
end

section
/-! PROOFS. The family of 43_measurement.md: the steps of a measurement phase by phase, its runs from acceptance to
completion, and the number of steps any command takes at most. -/

namespace Sys2Proof.Machine

/-! ## The two measurements -/

/-- The command `i` measures `q` and triggers it by the command byte `cmd` (R130, R131). -/
inductive Measures : Instr → Quantity → Byte → Prop where
  | meast : Measures .meast .temperature Config.cmdTrigT
  | meash : Measures .meash .humidity Config.cmdTrigRh

section
variable {i : Instr} {q : Quantity} {cmd : Byte} {s : State}

theorem exists_measures (h : i = .meast ∨ i = .meash) : ∃ q cmd, Measures i q cmd := by
  rcases h with rfl | rfl
  · exact ⟨_, _, .meast⟩
  · exact ⟨_, _, .meash⟩

theorem exists_measures_of_trigger (h : (i, cmd) = (.meast, Config.cmdTrigT) ∨ (i, cmd) = (.meash, Config.cmdTrigRh)) :
    ∃ q, Measures i q cmd := by
  rcases h with h | h <;> cases h
  · exact ⟨_, .meast⟩
  · exact ⟨_, .meash⟩

theorem measures_of_triple (h : (i, q, cmd) = (.meast, .temperature, Config.cmdTrigT) ∨
    (i, q, cmd) = (.meash, .humidity, Config.cmdTrigRh)) : Measures i q cmd := by
  rcases h with h | h <;> cases h
  · exact .meast
  · exact .meash

namespace Measures

theorem wf (h : Measures i q cmd) : i.wf = true := by cases h <;> rfl

theorem startPhase_eq (h : Measures i q cmd) : startPhase i = .trig := by cases h <;> rfl

theorem exec_eq (h : Measures i q cmd) (s : State) : exec i s = measurementStep cmd q s := by cases h <;> rfl

/-! ### One step in each phase -/

/-- Phase `TRIG` is the trigger's frame (R126). -/
theorem runsTrigger (h : Measures i q cmd) :
    RunsFrame i .trig (frameWrcmd Config.devAddr cmd) State.triggered State.raiseBus :=
  ⟨frameWrcmd_wellShaped _ _, fun s hp => by simp [h.exec_eq, measurementStep, hp]⟩

/-- Phase `POLL` is the frame of one read attempt (R128). -/
theorem runsPoll (h : Measures i q cmd) :
    RunsFrame i .poll (frameRdnr Config.devAddr Config.sampleLen) (fun s => { s with phase := .fin })
      (fun s _ => s.pollFailed) :=
  ⟨pollFrame_wellShaped, fun s hp => by simp [h.exec_eq, measurementStep, hp]⟩

theorem exec_delay (h : Measures i q cmd) (hp : s.phase = .delay) (hret : s.NextCallReturns) :
    exec i s = .next s.spendCall.beginPoll := by
  simp [h.exec_eq, measurementStep, hp, external_of_returns hret]

theorem exec_fin (h : Measures i q cmd) (hp : s.phase = .fin) : exec i s = .next (s.finish q) := by
  simp [h.exec_eq, measurementStep, hp]

end Measures

/-! ## The end of a poll and of a measurement -/

theorem pollFailed_of_lt (hk : s.k < Config.pollMax) : s.pollFailed = { s with phase := .delay } := if_pos hk

theorem pollFailed_of_ge (hk : Config.pollMax ≤ s.k) :
    s.pollFailed = s.raise .dataError .pollExhausted Config.pollMax :=
  if_neg (BitVec.not_lt.mpr hk)

theorem finish_of_match (hc : crc8 [s.t.b0, s.t.b1] = s.t.b2) : s.finish q = (s.storeMeasurement q).completeOk :=
  if_pos hc

theorem finish_of_mismatch (hc : crc8 [s.t.b0, s.t.b1] ≠ s.t.b2) :
    s.finish q = s.raise .dataError .crcMismatch s.k :=
  if_neg hc

/-- The whole state of a completed measurement (R125, R129). -/
theorem completed_measurement (s : State) (q : Quantity) :
    (s.storeMeasurement q).completeOk =
      { s with
        d := s.t
        raw := packSample s.t.b0 s.t.b1
        resultFx := resultFxOf q (packSample s.t.b0 s.t.b1)
        resultFp := resultFpOf q (packSample s.t.b0 s.t.b1)
        crcVal := crc8 [s.t.b0, s.t.b1]
        status := { busy := false, done := true, fail := false, errKind := .none, cause := .none, crcOk := true,
                    rvalid := true, rkind := q, sbits := statusBits s.t.b1, rxcnt := 3, pollcnt := s.k }
        phase := .idle } := rfl

end

/-! ## Runs of a measurement -/

/-- A run of `k` steps from `s` is answered, with a state of which `P` holds. -/
def Runs (k : Nat) (s : State) (P : State → Prop) : Prop := ∃ t, Host.Core.run core k s = .next t ∧ P t

/-- The command `i` stands ready between two frames of a measurement, after `n` read attempts, in the surroundings `e`. -/
structure State.Attempted (s : State) (i : Instr) (n : Nat) (e : Env) : Prop where
  ready : s.Ready i
  held  : s.held = false
  k     : s.k = BitVec.ofNat 7 n
  env   : s.env = e

section
variable {s t : State} {i : Instr} {q : Quantity} {cmd b0 b1 b2 : Byte} {e : Env} {as : List Ack} {rest : List Byte}
  {m n : Nat} {P Q : State → Prop}

theorem Runs.then (h : Runs m s P) (hnext : ∀ t, P t → Runs n t Q) : Runs (m + n) s Q := by
  obtain ⟨t, hrun, ht⟩ := h
  obtain ⟨u, hrun', hu⟩ := hnext t ht
  exact ⟨u, (run_add m n hrun).trans hrun', hu⟩

theorem runs_zero (h : P s) : Runs 0 s P := ⟨s, rfl, h⟩

theorem State.Ready.runs_one (hs : s.Ready i) (hexec : exec i s = .next t) (ht : P t) : Runs 1 s P :=
  ⟨t, by rw [run_succ 0 (hs.step_eq.trans hexec), run_zero], ht⟩

theorem State.Ready.ir_eq (h : s.Ready i) : s.ir = encode i := (encodeOfDecode s.ir i h.decoded).2.symm

/-- A state that differs from a ready one in nothing readiness speaks of. -/
theorem State.Ready.kept (h : s.Ready i) (hst : t.status = s.status := by rfl) (hir : t.ir = s.ir := by rfl)
    (hhost : t.env.host = s.env.host := by rfl) (hret : t.env.hangAfter = s.env.hangAfter := by rfl) : t.Ready i :=
  ⟨hst ▸ h.busy, hir ▸ h.decoded, hhost.trans h.host, hret.trans h.returns⟩

/-- The calls of an acknowledged trigger (R88, R126). -/
def triggerCalls (cmd : Byte) : List Call :=
  [.start, .writeByte (Config.devAddr ++ 0#1) .ack, .writeByte cmd .ack, .stop]

/-- The calls of a delay and a read attempt that is refused (R127, R128, R133). -/
def refusedAttempt : List Call := [.delay, .start, .writeByte (Config.devAddr ++ 1#1) .nack, .stop]

/-- The calls of a delay and a read attempt that receives the three bytes (R127, R128, R133). -/
def successfulAttempt (b0 b1 b2 : Byte) : List Call :=
  [.delay, .start, .writeByte (Config.devAddr ++ 1#1) .ack, .readByte b0, .sendAck, .readByte b1, .sendAck,
   .readByte b2, .sendNack, .stop]

namespace Measures

/-- The trigger, both of its bytes acknowledged. -/
theorem run_trigger (h : Measures i q cmd) (hhost : s.env.host = []) (hret : s.AllCallsReturn)
    (ha : s.env.acks = .ack :: .ack :: as) :
    Runs 4 (s.accept (encode i) i) fun t => t.phase = .delay ∧
      t.Attempted i 0 { s.env with acks := as, calls := s.env.calls ++ triggerCalls cmd } := by
  have hs : (s.accept (encode i) i).Ready i := .accept h.wf hhost hret
  refine ⟨_, h.runsTrigger.run_ok (ms := [_, _, _]) (d := fun _ => 0) hs h.startPhase_eq rfl (frameWrcmd_eq _ _)
    (by simp [Micro.Middle]) ⟨ha, rfl⟩, rfl, hs.kept, rfl, rfl, ?_⟩
  simp [State.played, Micro.call, triggerCalls]

/-- The delay before a poll. -/
theorem run_delay (h : Measures i q cmd) (hs : s.Attempted i n e) (hp : s.phase = .delay) :
    Runs 1 s fun t => t.phase = .poll ∧ t.upc = 0 ∧
      t.Attempted i (n + 1) { e with calls := e.calls ++ [.delay] } := by
  obtain ⟨hready, hheld, hk, rfl⟩ := hs
  refine hready.runs_one (h.exec_delay hp hready.nextCallReturns) ?_
  rw [State.spendCall_of_allCallsReturn hready.returns]
  exact ⟨rfl, rfl, hready.kept, hheld,
    by simp [hk, BitVec.ofNat_add], rfl⟩

/-- A delay and a poll whose address byte is refused. -/
theorem run_refusedAttempt (h : Measures i q cmd) (hs : s.Attempted i n e) (hp : s.phase = .delay)
    (ha : e.acks = .nack :: as) :
    Runs 4 s fun t => ∃ u : State, t = u.pollFailed ∧
      u.Attempted i (n + 1) { e with acks := as, calls := e.calls ++ refusedAttempt } := by
  refine (h.run_delay hs hp).then (n := 3) fun u ⟨hp, hu, hs⟩ => ?_
  obtain ⟨hready, hheld, hk, henv⟩ := hs
  refine ⟨_, h.runsPoll.run_refused (ms := [_]) (d := fun _ => 0) hready hp hu (frameRdnr_eq _ _)
    (by simp [Micro.Middle]) ⟨by rw [henv]; exact ha, rfl⟩, _, rfl,
    hready.kept, rfl, hk, ?_⟩
  simp [State.played, State.refusedWrite, henv, Micro.call, refusedAttempt]

/-- A delay and a poll that is acknowledged. -/
theorem run_successfulAttempt (h : Measures i q cmd) (hs : s.Attempted i n e) (hp : s.phase = .delay)
    (ha : e.acks = .ack :: as) (hb : e.bytes = b0 :: b1 :: b2 :: rest) :
    Runs 10 s fun t => t.phase = .fin ∧ t.t = ⟨b0, b1, b2⟩ ∧
      t.Attempted i (n + 1)
        { e with acks := as, bytes := rest, calls := e.calls ++ successfulAttempt b0 b1 b2 } := by
  refine (h.run_delay hs hp).then (n := 9) fun u ⟨hp, hu, hs⟩ => ?_
  obtain ⟨hready, hheld, hk, henv⟩ := hs
  refine ⟨_, h.runsPoll.run_ok (ms := headRdnr _ ++ readLoop 0 3) (d := ([b0, b1, b2].getD · 0)) hready hp hu
    (frameRdnr_eq _ _) ?_ ⟨by rw [henv]; exact ha, by rw [henv]; exact hb⟩, rfl, rfl,
    hready.kept, rfl, hk, ?_⟩
  · simp [headRdnr, readLoop, Micro.Middle]
  · simp [State.played, henv, headRdnr, readLoop, Micro.call, successfulAttempt]

/-- `m` refused attempts, none of them the 85th. -/
theorem run_refusedAttempts (h : Measures i q cmd) (hs : s.Attempted i n e) (hp : s.phase = .delay)
    (ha : e.acks = List.replicate m .nack ++ as) (hm : n + m < 85) :
    Runs (4 * m) s fun t => t.phase = .delay ∧
      t.Attempted i (n + m)
        { e with acks := as, calls := e.calls ++ (List.replicate m refusedAttempt).flatten } := by
  induction m generalizing s n e with
  | zero =>
    obtain rfl : e.acks = as := ha
    exact runs_zero ⟨hp, by simpa using hs⟩
  | succ m ih =>
    rw [Nat.mul_succ, Nat.add_comm]
    refine (h.run_refusedAttempt hs hp ha).then ?_
    rintro _ ⟨u, rfl, hu⟩
    have hk : u.k < Config.pollMax := by
      simp [hu.k, Config.pollMax, BitVec.lt_def]
      omega
    rw [pollFailed_of_lt hk]
    have hgo := ih (s := { u with phase := .delay }) ⟨hu.ready.kept, hu.held, hu.k, hu.env⟩ rfl rfl (by omega)
    simpa [List.replicate_succ, Nat.add_assoc, Nat.add_comm 1] using hgo

end Measures

end

/-! ## The steps a command has left -/

/-- The most steps a frame has left at `UPC`: the abort step alone, or the rest of the frame. -/
def frameLeft (f : List Micro) (upc : Nat) : Nat := if upc = abortUpc then 1 else f.length - upc

/-- The most steps a measurement has left at the delay after `k` attempts: four for each attempt it has left but the last,
and eleven for a last one that succeeds, with `FIN` (R133). -/
def attemptsLeft (k : BitVec 7) : Nat := 4 * (85 - k.toNat) + 7

/-- The most steps a measurement has left at `UPC` in the poll of attempt `k`: from the abort step the attempts after it,
else the rest of the frame and `FIN`, with the four steps of each attempt a refusal would leave. -/
def pollLeft (k : BitVec 7) (upc : Nat) : Nat :=
  if upc = abortUpc then 1 + attemptsLeft k else 4 * (85 - k.toNat) + (10 - upc)

/-- The most steps the command `i` has left in the state `s`, whatever the transactor answers. -/
def State.stepsLeft (i : Instr) (s : State) : Nat :=
  match s.phase with
  | .idle => 0
  | .prim => frameLeft (firstFrame i) s.upc
  | .trig => frameLeft (firstFrame i) s.upc + attemptsLeft 0
  | .delay => attemptsLeft s.k
  | .poll => pollLeft s.k s.upc
  | .fin | .pure => 1

section
variable {s t : State} {i : Instr} {f : List Micro} {m : Micro}

theorem microState_upc (hok : m ≠ .stopOk) (hfail : m ≠ .stopFail) :
    (microState m s).upc = s.upc + 1 ∨ (∃ b c, m = .write b c) ∧ (microState m s).upc = abortUpc := by
  cases m with
  | write b c => cases ha : s.ackAnswer <;> simp [microState, State.afterWrite, ha]
  | start | read | sendAck | sendNack => exact .inl rfl
  | stopOk => exact absurd rfl hok
  | stopFail => exact absurd rfl hfail

/-- A micro-step other than a `stop()` stands before the last step of its frame. -/
theorem WellShaped.upc_lt (hf : WellShaped f) {u : Nat} (hm : microAt f u = some m) (hok : m ≠ .stopOk)
    (hfail : m ≠ .stopFail) : u ≠ abortUpc ∧ u + 1 < f.length := by
  have hu : u ≠ abortUpc := by
    rintro rfl
    exact hfail (Option.some.inj ((microAt_abort f).symm.trans hm)).symm
  exact ⟨hu, hf.goesOn (microAt_of_ne hu ▸ hm) hok⟩

@[simp] theorem frameLeft_abort : frameLeft f abortUpc = 1 := if_pos rfl

theorem frameLeft_of_ne {u : Nat} (hu : u ≠ abortUpc) : frameLeft f u = f.length - u := if_neg hu

@[simp] theorem pollLeft_abort (k : BitVec 7) : pollLeft k abortUpc = 1 + attemptsLeft k := if_pos rfl

theorem pollLeft_of_ne (k : BitVec 7) {u : Nat} (hu : u ≠ abortUpc) :
    pollLeft k u = 4 * (85 - k.toNat) + (10 - u) := if_neg hu

/-- A refusal leaves one step of the frame, any other micro-step one less than before. -/
theorem WellShaped.frameLeft_lt (hf : WellShaped f) (hm : microAt f s.upc = some m) (hok : m ≠ .stopOk)
    (hfail : m ≠ .stopFail) : frameLeft f (microState m s).upc < frameLeft f s.upc := by
  obtain ⟨hne, hlast⟩ := hf.upc_lt hm hok hfail
  have hfits := hf.fits
  rw [frameLeft_of_ne hne]
  rcases microState_upc (s := s) hok hfail with hu | ⟨-, hu⟩ <;> rw [hu]
  · rw [frameLeft_of_ne (by omega)]
    omega
  · rw [frameLeft_abort]
    omega

theorem InFrame.frameLeft_pos (h : InFrame f s) : 0 < frameLeft f s.upc := by
  rcases h with ⟨hu, -⟩ | ⟨hl, hu, -⟩
  · simp [hu]
  · rw [frameLeft_of_ne hu.ne]
    omega

theorem frameLeft_le (h : 0 < f.length) (u : Nat) : frameLeft f u ≤ f.length := by
  unfold frameLeft
  split <;> omega

/-- The only byte a poll writes is the address byte, at `UPC` 1 (R82). -/
theorem poll_write_upc {u : Nat} {b : Byte} {c : Cause}
    (h : (frameRdnr Config.devAddr Config.sampleLen)[u]? = some (.write b c)) : u = 1 := by
  obtain ⟨hlt, -⟩ := List.getElem?_eq_some_iff.mp h
  rw [frameRdnr_eq] at h hlt
  simp only [headRdnr, Config.sampleLen, readLoop, List.length_append, List.length_cons, List.length_nil] at hlt
  interval_cases u <;> simp [headRdnr, Config.sampleLen, readLoop] at h ⊢

/-- A refusal of the address byte leaves the abort step and the attempts after it, any other micro-step of a poll one step
less than before. -/
theorem pollLeft_lt (k : BitVec 7) (hm : microAt (frameRdnr Config.devAddr Config.sampleLen) s.upc = some m)
    (hok : m ≠ .stopOk) (hfail : m ≠ .stopFail) : pollLeft k (microState m s).upc < pollLeft k s.upc := by
  obtain ⟨hne, hlast⟩ := pollFrame_wellShaped.upc_lt hm hok hfail
  have hlen : (frameRdnr Config.devAddr Config.sampleLen).length = 9 := rfl
  have hfits := pollFrame_wellShaped.fits
  rw [pollLeft_of_ne k hne]
  rcases microState_upc (s := s) hok hfail with hu | ⟨⟨b, c, rfl⟩, hu⟩ <;> rw [hu]
  · rw [pollLeft_of_ne k (by omega)]
    omega
  · have hone : s.upc = 1 := poll_write_upc (microAt_of_ne hne ▸ hm)
    rw [pollLeft_abort, attemptsLeft, hone]
    omega

theorem microState_hangAfter (m : Micro) (s : State) : (microState m s).env.hangAfter = s.env.hangAfter := by
  cases m with
  | write b c => cases ha : s.ackAnswer <;> simp [microState, State.afterWrite, ha]
  | _ => rfl

/-- A step of the command leaves the host's queue alone, and when every call returns it stays so. -/
theorem Effect.host_and_returns (he : Effect i s t) (hret : s.AllCallsReturn) :
    t.env.host = s.env.host ∧ t.AllCallsReturn := by
  unfold State.AllCallsReturn at *
  cases he with
  | own | polling => simp [microState_hangAfter, hret]
  | pollFailed => rcases s.spendCall.callStop.pollFailed_cases with ⟨-, ht⟩ | ⟨-, ht⟩ <;> simp [ht, hret]
  | finished q => rcases s.finish_cases q with ⟨-, ht⟩ | ⟨-, ht⟩ <;> simp [ht, hret]
  | _ => simp [hret]

/-- A step that ends the command sets `DONE`. -/
theorem Effect.done_of_idle (he : Effect i s t) (hb : s.status.busy = true) (hidle : t.status.busy = false) :
    t.status.done = true := by
  cases he with
  | hung | own | polling | triggered | delayed | polled => simp [hb] at hidle
  | pollFailed =>
    rcases s.spendCall.callStop.pollFailed_cases with ⟨-, ht⟩ | ⟨-, ht⟩ <;> rw [ht] at hidle ⊢
    · simp [hb] at hidle
    · rfl
  | finished q => rcases s.finish_cases q with ⟨-, ht⟩ | ⟨-, ht⟩ <;> rw [ht] <;> rfl
  | received | sent | aborted | checked | packed | converted => rfl

theorem stepsLeft_of_idle (hp : s.phase = .idle) : s.stepsLeft i = 0 := by simp [State.stepsLeft, hp]

/-- Below `POLL_MAX` attempts, the delay and the poll after it have the steps of one attempt more than the next delay. -/
theorem pollLeft_next {k : BitVec 7} (hk : k < Config.pollMax) : pollLeft (k + 1) 0 < attemptsLeft k := by
  have hlt : k.toNat < 85 := hk
  rw [pollLeft_of_ne _ (by decide), attemptsLeft, BitVec.toNat_add]
  simp
  omega

theorem attemptsLeft_pos (k : BitVec 7) : 0 < attemptsLeft k := by
  unfold attemptsLeft
  omega

theorem attemptsLeft_le (k : BitVec 7) : attemptsLeft k ≤ 347 := by
  unfold attemptsLeft
  omega

theorem pollLeft_le (k : BitVec 7) (upc : Nat) : pollLeft k upc ≤ 351 := by
  have hattempts := attemptsLeft_le k
  unfold pollLeft
  split <;> omega

/-- A poll has a step left beside `FIN`. -/
theorem InFrame.one_lt_pollLeft (h : InFrame (frameRdnr Config.devAddr Config.sampleLen) s) (k : BitVec 7) :
    1 < pollLeft k s.upc := by
  rcases h with ⟨hu, -⟩ | ⟨hl, hu, -⟩
  · have hattempts := attemptsLeft_pos k
    rw [hu, pollLeft_abort]
    omega
  · have hlast : s.upc < 9 := hl
    rw [pollLeft_of_ne k hu.ne]
    omega

theorem WellShaped.upc_of_stopFail (hf : WellShaped f) {u : Nat} (hm : microAt f u = some .stopFail) :
    u = abortUpc := by
  by_contra hu
  rw [microAt_of_ne hu] at hm
  exact hf.noAbort (List.mem_of_getElem? hm)

/-- A running command has a step left. -/
theorem Position.stepsLeft_pos (h : Position i s) : 0 < s.stepsLeft i := by
  unfold State.stepsLeft
  cases hp : s.phase with
  | prim =>
    obtain ⟨-, hin⟩ := (position_own (.inl hp)).mp h
    exact hin.frameLeft_pos
  | trig => exact Nat.add_pos_right _ (attemptsLeft_pos 0)
  | delay => exact attemptsLeft_pos s.k
  | poll =>
    obtain ⟨-, hin, -⟩ := (position_poll hp).mp h
    exact Nat.zero_lt_of_lt (hin.one_lt_pollLeft s.k)
  | fin | pure => exact Nat.one_pos
  | idle => exact absurd hp h.phase_ne_idle

/-- Every step of the running command uses up one of the steps it has left. -/
theorem Effect.stepsLeft_lt (he : Effect i s t) (hret : s.AllCallsReturn) (hwf : i.wf = true) (hpos : Position i s) :
    t.stepsLeft i < s.stepsLeft i := by
  have hcompleted (ht : t.phase = .idle) : t.stepsLeft i < s.stepsLeft i := by
    rw [stepsLeft_of_idle ht]
    exact hpos.stepsLeft_pos
  cases he with
  | hung hhang => simp [hret] at hhang
  | @own m _ hp hi hm hok hfail =>
    have hf : WellShaped (firstFrame i) := firstFrame_wellShaped hwf (by rcases hp with hp | hp <;> simp [← hi, hp])
    have hlt := hf.frameLeft_lt (s := s.spendCall) hm hok hfail
    rcases hp with hp | hp <;> simpa [State.stepsLeft, hp] using hlt
  | triggered _ hp =>
    obtain ⟨-, hin⟩ := (position_own (.inr hp)).mp hpos
    simpa [State.stepsLeft, hp] using hin.frameLeft_pos
  | delayed _ hp =>
    obtain ⟨-, -, hk⟩ := (position_delay hp).mp hpos
    simpa [State.stepsLeft, hp] using pollLeft_next hk
  | polling _ hp _ hm hok hfail =>
    simpa [State.stepsLeft, hp] using pollLeft_lt (s := s.spendCall) s.k hm hok hfail
  | polled _ hp =>
    obtain ⟨-, hin, -⟩ := (position_poll hp).mp hpos
    simpa [State.stepsLeft, hp] using hin.one_lt_pollLeft s.k
  | pollFailed _ hp _ hm =>
    rcases s.spendCall.callStop.pollFailed_cases with ⟨-, ht⟩ | ⟨-, ht⟩
    · rw [ht]
      simp [State.stepsLeft, hp, pollFrame_wellShaped.upc_of_stopFail hm]
    · exact hcompleted (by rw [ht]; rfl)
  | finished q =>
    exact hcompleted (by rcases s.finish_cases q with ⟨-, ht⟩ | ⟨-, ht⟩ <;> rw [ht] <;> rfl)
  | received | sent | aborted | checked | packed | converted => exact hcompleted rfl

/-- No command has more than 351 steps left: a measurement at its acceptance has them all. -/
theorem Position.stepsLeft_le (h : Position i s) (hwf : i.wf = true) : s.stepsLeft i ≤ 351 := by
  have hown (hi : startPhase i ≠ .pure) : frameLeft (firstFrame i) s.upc ≤ 12 := by
    have hf : WellShaped (firstFrame i) := firstFrame_wellShaped hwf hi
    have hfirst : 0 < (firstFrame i).length := (List.getElem?_eq_some_iff.mp hf.first).1
    exact (frameLeft_le hfirst _).trans hf.fits
  unfold State.stepsLeft
  cases hp : s.phase with
  | prim =>
    obtain ⟨hi, -⟩ := (position_own (.inl hp)).mp h
    exact (hown (by simp [hi, hp])).trans (by decide)
  | trig =>
    obtain ⟨hi, -⟩ := (position_own (.inr hp)).mp h
    have hlen : (firstFrame i).length = 4 := by
      rw [hp] at hi
      cases i with
      | meast | meash => rfl
      | _ => cases hi
    exact Nat.add_le_add (hlen ▸ frameLeft_le (by omega) s.upc) (attemptsLeft_le 0)
  | delay => exact (attemptsLeft_le s.k).trans (by decide)
  | poll => exact pollLeft_le s.k s.upc
  | fin | pure | idle => simp

/-! ## Runs to the end of a command -/

theorem run_of_idle (hb : s.status.busy = false) (hhost : s.env.host = []) (k : Nat) :
    Host.Core.run core k s = .next s := by
  induction k with
  | zero => rfl
  | succ k ih => rw [run_succ k ((step_of_empty hhost).trans (blockTurn_of_idle hb)), ih]

/-- A running command is over when its steps left are made. -/
theorem State.Ready.runs_to_end {n : Nat} (hs : s.Ready i) (h : s.Inv) (hn : s.stepsLeft i ≤ n) :
    Runs n s fun t => t.Inv ∧ t.status.busy = false ∧ t.status.done = true ∧ t.ir = s.ir := by
  induction n generalizing s with
  | zero => exact absurd (h.position hs.busy hs.decoded).stepsLeft_pos (by omega)
  | succ n ih =>
    have hpos : Position i s := h.position hs.busy hs.decoded
    obtain ⟨t, hexec⟩ := hpos.exec_progress
    have he : Effect i s t := exec_effect hexec
    obtain ⟨hhost, hret⟩ := he.host_and_returns hs.returns
    have ht : t.Inv := he.keeps_inv h hs.busy hs.decoded
    have hlt := he.stepsLeft_lt hs.returns (decode_wf hs.decoded) hpos
    unfold Runs
    rw [run_succ n (hs.step_eq.trans hexec)]
    cases hb : t.status.busy with
    | false => exact ⟨t, run_of_idle hb (hhost.trans hs.host) n, ht, hb, he.done_of_idle hs.busy hb, he.ir⟩
    | true =>
      rw [← he.ir]
      exact ih ⟨hb, he.ir ▸ hs.decoded, hhost.trans hs.host, hret⟩ ht (by omega)

end

/-! ## The obligations -/

/-- Settles O47: the trigger, the refused attempts, the successful one and `FIN`, one after the other. -/
theorem measurementSucceedsAtAttempt : Obligations.MeasurementSucceedsAtAttempt := by
  intro s i q cmd attempts b0 b1 b2 as rest hi h1 h85 hhost hret ha hb aw ar failed trace
  have h : Measures i q cmd := measures_of_triple hi
  obtain ⟨n, rfl⟩ : ∃ n, attempts = n + 1 := ⟨attempts - 1, by omega⟩
  have hfin : Runs (4 + (4 * n + 10)) (s.accept (encode i) i) fun t => t.phase = .fin ∧ t.t = ⟨b0, b1, b2⟩ ∧
      t.Attempted i (n + 1) { s.env with acks := as, bytes := rest, calls := s.env.calls ++ trace } := by
    refine (h.run_trigger hhost hret ha).then fun t ⟨hp, ht⟩ =>
      (h.run_refusedAttempts ht hp rfl (by omega)).then fun t ⟨hp, ht⟩ => ?_
    simpa [trace, failed, triggerCalls, refusedAttempt, successfulAttempt, aw, ar] using
      h.run_successfulAttempt ht hp rfl hb
  have hsteps : 4 * (n + 1) + 11 = 4 + (4 * n + 10) + 1 := by omega
  rw [hsteps]
  refine hfin.then fun t ⟨hp, htt, ht⟩ => ht.ready.runs_one (h.exec_fin hp) ?_
  by_cases hc : crc8 [b0, b1] = b2
  · rw [finish_of_match (by simpa [htt] using hc), completed_measurement]
    refine ⟨ht.ready.ir_eq, rfl, ht.held, ht.env, fun _ => ?_, fun hne => absurd hc hne⟩
    simp [htt, ht.k, hc]
  · rw [finish_of_mismatch (by simpa [htt] using hc)]
    refine ⟨ht.ready.ir_eq, rfl, ht.held, ht.env, fun heq => absurd heq hc, fun _ => ?_⟩
    simp [ht.k, Status.reset]

/-- Settles O48: the trigger, 84 refused attempts that are tried again, and the 85th, which is not. -/
theorem measurementExhaustsAfter85Polls : Obligations.MeasurementExhaustsAfter85Polls := by
  intro s i cmd as hi hhost hret ha aw ar failed trace
  obtain ⟨q, h⟩ := exists_measures_of_trigger hi
  have hnacks : List.replicate 85 Ack.nack ++ as = List.replicate 84 .nack ++ .nack :: as := by
    rw [List.replicate_succ', List.append_assoc, List.singleton_append]
  rw [hnacks] at ha
  have hcalls : trace = triggerCalls cmd ++ (List.replicate 84 refusedAttempt).flatten ++ refusedAttempt := by
    have hlast : List.replicate 85 failed = List.replicate 84 refusedAttempt ++ [refusedAttempt] := List.replicate_succ'
    simp only [trace, hlast, List.flatten_append, List.flatten_singleton, List.append_assoc]
    rfl
  refine (h.run_trigger hhost hret ha).then (n := 4 * 84 + 4) fun t ⟨hp, ht⟩ =>
    (h.run_refusedAttempts ht hp rfl (by decide)).then fun t ⟨hp, ht⟩ =>
      (h.run_refusedAttempt ht hp rfl).then (n := 0) ?_
  rintro _ ⟨u, rfl, hu⟩
  rw [pollFailed_of_ge (by rw [hu.k]; decide)]
  refine runs_zero ⟨hu.ready.ir_eq, rfl, hu.held, rfl, rfl, rfl, rfl, rfl, rfl, ?_⟩
  simp [hu.env, hcalls]

/-- Settles O49: the trigger's frame up to the refused byte, then its abort step (`RunsFrame.run_refused`). -/
theorem triggerFailureEndsMeasurement : Obligations.TriggerFailureEndsMeasurement := by
  intro s i cmd as hi hhost hret aw fails
  obtain ⟨q, h⟩ := exists_measures_of_trigger hi
  have hfails {ms post : List Micro} {b : Byte} {c : Cause}
      (hf : frameWrcmd Config.devAddr cmd = ms ++ Micro.write b c :: post) (hmid : ∀ m ∈ ms, m.Middle)
      (hscript : s.Scripted (fun _ => 0) ms (.nack :: as) s.env.bytes) :
      fails (ms.length + 2) c (ms.map (Micro.call fun _ => 0) ++ [Call.writeByte b .nack, Call.stop]) := by
    refine ⟨_, h.runsTrigger.run_refused (.accept h.wf hhost hret) h.startPhase_eq rfl hf hmid
      ⟨hscript.acks, hscript.bytes⟩, ?_⟩
    simp [State.played, State.refusedWrite, Status.reset]
  exact ⟨fun ha => hfails (ms := [_]) (frameWrcmd_eq _ _) (by simp [Micro.Middle]) ⟨ha, rfl⟩,
    fun ha => hfails (ms := [_, _]) (frameWrcmd_eq _ _) (by simp [Micro.Middle]) ⟨ha, rfl⟩⟩

/-- Settles O50: every step of the running command uses up one of the steps left to it (`Effect.stepsLeft_lt`), and there
are at most 351 (`Position.stepsLeft_le`). -/
theorem everyCommandEndsWithin351Steps : Obligations.EveryCommandEndsWithin351Steps := by
  intro s h hhost hret
  cases hb : s.status.busy with
  | false => exact ⟨s, run_of_idle hb hhost 351, hb, (h.idle hb).2, by simp⟩
  | true =>
    obtain ⟨i, hd, hpos⟩ := h.running hb
    obtain ⟨t, hrun, ht, hidle, hend⟩ :=
      State.Ready.runs_to_end ⟨hb, hd, hhost, hret⟩ h (hpos.stepsLeft_le (decode_wf hd))
    exact ⟨t, hrun, hidle, (ht.idle hidle).2, fun _ => hend⟩

/-- Settles O31: the trigger and the poll are frames (`Measures.runsTrigger`, `Measures.runsPoll`), whose `stop()` ends the
phase. -/
theorem measurementPhaseChanges : Obligations.MeasurementPhaseChanges := by
  intro i s hi hret env stopped
  obtain ⟨q, cmd, h⟩ := exists_measures hi
  have habort (hp : s.phase = .poll) (hu : s.upc = 12) : exec i s = .next s.spendCall.callStop.pollFailed := by
    rw [h.runsPoll.exec_eq s hp, frameStep_stopFail (by rw [hu]; rfl) hret]
  refine ⟨fun hp hu => ?_, fun hp => h.exec_delay hp hret, fun hp hu => ?_, fun hp hu hk => ?_, fun hp hu hk => ?_⟩
  · rw [h.runsTrigger.exec_eq s hp, frameStep_stopOk (by rw [hu]; rfl) hret]
    rfl
  · rw [h.runsPoll.exec_eq s hp, frameStep_stopOk (by rw [hu]; rfl) hret]
    rfl
  · exact (habort hp hu).trans (congrArg _ (pollFailed_of_lt (s := s.spendCall.callStop) hk))
  · exact (habort hp hu).trans (congrArg _ (pollFailed_of_ge (s := s.spendCall.callStop) hk))

/-- Settles O32, by the whole state of a completed measurement with the layouts of R111. -/
theorem measurementCompletes : Obligations.MeasurementCompletes := by
  intro s hp hc tmp done
  have htmp : packSample s.t.b0 s.t.b1 = tmp := packSample_eq _ _
  rw [Measures.meast.exec_fin hp, Measures.meash.exec_fin hp, finish_of_match hc, finish_of_match hc,
    completed_measurement, completed_measurement, htmp, statusBits_eq]
  exact ⟨rfl, rfl⟩

/-- Settles O33, by the other branch of the `FIN` step. -/
theorem checksumMismatchRaisesDataError : Obligations.ChecksumMismatchRaisesDataError := by
  intro i s hi hp hc
  obtain ⟨q, cmd, h⟩ := exists_measures hi
  rw [h.exec_fin hp, finish_of_mismatch hc]
  rfl

/-- Settles O34: of the effects that end a measurement only the matching checksum sets `RVALID`. -/
theorem readingComesFromValidatedSample : Obligations.ReadingComesFromValidatedSample := by
  intro i q s t hi hb hs hdone hvalid
  have htrig : startPhase i = .trig := by rcases hi with h | h <;> cases h <;> rfl
  cases exec_effect hs with
  | hung | own | polling | triggered | delayed | polled => simp [hb] at hdone
  | aborted => simp at hvalid
  | pollFailed =>
    rcases s.spendCall.callStop.pollFailed_cases with ⟨-, ht⟩ | ⟨-, ht⟩ <;> rw [ht] at hdone hvalid
    · simp [hb] at hdone
    · simp at hvalid
  | finished q' hp hi' =>
    obtain rfl : q = q' := by rcases hi with h | h <;> cases h <;> simpa [eq_comm] using hi'
    rcases s.finish_cases q with ⟨hc, ht⟩ | ⟨-, ht⟩ <;> rw [ht] at hvalid ⊢
    · exact ⟨hp, rfl, hc, rfl, rfl, rfl, rfl, rfl, rfl⟩
    · simp at hvalid
  | received _ _ _ hi' | sent _ _ hi' => simp [htrig] at hi'
  | checked _ _ hi' | packed _ hi' => simp [hi', startPhase] at htrig
  | converted _ _ hi' => rcases hi' with h | h <;> cases h <;> cases htrig

end Sys2Proof.Machine
end

section
/-! PROOFS. The family of 60_exceptions.md: the abort step of a command's own frame, what a failing completion clears,
the call that never returns, and the refusal of an illegal word. -/

namespace Sys2Proof.Machine

section
variable {i : Instr} {s t : State} {w : Word}

/-! ## The abort step -/

/-- In the phase it starts with, a command that has a frame runs that frame, and its failure raises BusError (R81 to
R84, 43_measurement.md R126). -/
theorem exec_own_frame (hi : startPhase i ≠ .pure) (hp : s.phase = startPhase i) :
    ∃ onOk, exec i s = frameStep (firstFrame i) s onOk State.raiseBus := by
  cases i with
  | rdreg | rdnr | wrreg | wrcmd | getur | setur | srst => exact ⟨_, exec_eq_frameStep rfl hp⟩
  | meast => exact ⟨_, Measures.meast.runsTrigger.exec_eq s hp⟩
  | meash => exact ⟨_, Measures.meash.runsTrigger.exec_eq s hp⟩
  | crc8 | pack | convt | convh => exact absurd rfl hi

theorem exec_abort (hi : startPhase i ≠ .pure) (hp : s.phase = startPhase i) (hu : s.upc = abortUpc)
    (hret : s.NextCallReturns) : exec i s = .next (s.spendCall.callStop.raiseBus s.causeP) := by
  obtain ⟨onOk, hexec⟩ := exec_own_frame hi hp
  rw [hexec, frameStep_stopFail (by rw [hu, microAt_abort]) hret]

/-! ## Failing completions -/

/-- `t` is the failing completion of the command `i` from the state `s` (R156), after changes that neither `IR` nor the
host's side shows; only a measurement counts its polls. -/
def RaisedFrom (i : Instr) (s t : State) : Prop :=
  ∃ (u : State) (e : ErrKind) (c : Cause) (p : BitVec 7), t = u.raise e c p ∧
    u.ir = s.ir ∧ u.env.host = s.env.host ∧ u.env.reads = s.env.reads ∧
    (startPhase i ≠ .trig → p = 0) ∧ startPhase i ≠ .pure

/-- A measurement fails by R156 whatever its count of polls. -/
theorem raisedFrom_of_trig {u : State} {e : ErrKind} {c : Cause} {p : BitVec 7} (hi : startPhase i = .trig)
    (hir : u.ir = s.ir) (hhost : u.env.host = s.env.host) (hreads : u.env.reads = s.env.reads) :
    RaisedFrom i s (u.raise e c p) :=
  ⟨u, e, c, p, rfl, hir, hhost, hreads, absurd hi, by simp [hi]⟩

/-- The steps that set `FAIL` are the abort of the command's own frame, the 85th failed poll, and the checksum that does
not match; each of them is `State.raise`. -/
theorem Effect.raisedFrom (he : Effect i s t) (hs : s.status.fail = false) (ht : t.status.fail = true) :
    RaisedFrom i s t := by
  cases he with
  | aborted _ hp hi =>
    exact ⟨_, _, _, _, rfl, rfl, rfl, rfl, fun _ => rfl, by rcases hp with hp | hp <;> simp [← hi, hp]⟩
  | pollFailed _ _ hi =>
    rcases s.spendCall.callStop.pollFailed_cases with ⟨-, hfailed⟩ | ⟨-, hfailed⟩ <;> rw [hfailed] at ht ⊢
    · simp [hs] at ht
    · exact raisedFrom_of_trig hi rfl rfl rfl
  | finished q _ hi =>
    rcases s.finish_cases q with ⟨-, hfin⟩ | ⟨-, hfin⟩ <;> rw [hfin] at ht ⊢
    · simp at ht
    · exact raisedFrom_of_trig (by rcases hi with hi | hi <;> cases hi <;> rfl) rfl rfl rfl
  | hung | own | polling | triggered | delayed | polled => simp [hs] at ht
  | received | sent | checked | packed | converted => simp at ht

/-! ## A call that never returns -/

/-- Outside `FIN` and `PURE` every step makes a call, so a call that never returns leaves the state as it is (R167). -/
theorem Effect.eq_of_hang (he : Effect i s t) (hhang : s.env.hangAfter = some 0) (hfin : s.phase ≠ .fin)
    (hpure : s.phase ≠ .pure) : t = s := by
  cases he with
  | hung => rfl
  | finished _ hp => exact absurd hp hfin
  | checked _ hp | packed hp | converted _ hp => exact absurd hp hpure
  | own hret | polling hret | received _ hret | sent hret | aborted hret | triggered hret | delayed hret | polled hret
  | pollFailed hret => exact absurd hhang hret

theorem run_of_step_self (h : step s = .next s) (k : Nat) : Host.Core.run core k s = .next s := by
  induction k with
  | zero => rfl
  | succ k ih => rw [run_succ k h, ih]

/-! ## Illegal words -/

theorem exists_decode_error (h : ∀ i, decode w ≠ .ok i) : ∃ e, decode w = .error e := by
  cases hd : decode w with
  | ok i => exact absurd hd (h i)
  | error e => exact ⟨e, rfl⟩

theorem refuseWord_statusWord (s : State) (w : Word) : (s.refuseWord w).status.word = 0x000000FE := by
  simp only [State.refuseWord, State.raise_status]
  decide

end

/-! ## The obligations -/

/-- Settles O27: `UPC` 12 is the abort step of the frame the command starts with (`exec_abort`). -/
theorem abortStepRaisesBusError : Obligations.AbortStepRaisesBusError :=
  fun _ _ hi hp hu hret => exec_abort hi hp hu hret

/-- Settles O30: whatever step sets `FAIL`, it is `State.raise` (`Effect.raisedFrom`). -/
theorem failingCompletionClearsEveryOutput : Obligations.FailingCompletionClearsEveryOutput := by
  intro i s t _ hs hexec ht
  obtain ⟨u, e, c, p, rfl, hir, hhost, hreads, hp, hi⟩ := (exec_effect hexec).raisedFrom hs ht
  exact ⟨rfl, rfl, rfl, rfl, rfl, rfl, rfl, rfl, rfl, rfl, rfl, rfl, rfl, hir, hp, hi, hhost, hreads⟩

/-- Settles O42: the invariant gives the command a step (`Position.exec_progress`), and the call that never returns
makes it the one that changes nothing (`Effect.eq_of_hang`). -/
theorem hungCallNeverCompletes : Obligations.HungCallNeverCompletes := by
  intro s h hb hfin hpure hhang hhost k
  obtain ⟨i, hd, hpos⟩ := h.running hb
  obtain ⟨t, hexec⟩ := hpos.exec_progress
  obtain rfl : t = s := (exec_effect hexec).eq_of_hang hhang hfin hpure
  exact run_of_step_self ((step_of_empty hhost).trans ((blockTurn_of_busy hb hd).trans hexec)) k

/-- Settles O8: the write is `State.refuseWord` (`commandAcceptance`), which leaves the block idle. -/
theorem refusalOfIllegalWord : Obligations.RefusalOfIllegalWord := by
  intro s q w hb hw hq
  obtain ⟨e, hd⟩ := exists_decode_error hw
  exact ⟨_, (commandAcceptance s q w hb hq).2 e hd, rfl, refuseWord_statusWord _ w, rfl, rfl, rfl, rfl, rfl, rfl, rfl,
    rfl, blockTurn_of_idle rfl⟩

end Sys2Proof.Machine
end

section
/-! PROOFS. The family of 70_reset_and_hazards.md: when reset acts, and that nothing moves while block and host are
idle. -/

namespace Sys2Proof.Machine

section
variable {s : State}

/-! ## Reset -/

theorem hostReset_of_idle (hb : s.status.busy = false) : hostReset s = .next { State.reset with env := s.env } := by
  simp [hostReset, hb]

theorem hostReset_of_busy (hb : s.status.busy = true) : hostReset s = .refused .resetWhileBusy := by
  simp [hostReset, hb]

end

/-! ## The obligations -/

/-- Settles O2: the host's turn is `hostReset` (`step_of_reset`), which `BUSY` decides. -/
theorem resetEventOnlyWhileIdle : Obligations.ResetEventOnlyWhileIdle := by
  intro s q hq
  rw [step_of_reset hq]
  exact ⟨fun hb => hostReset_of_idle (s := s.withHost q) hb, fun hb => hostReset_of_busy (s := s.withHost q) hb⟩

/-- Settles O43: with no host action queued the block has every turn, and an idle block does not move (`run_of_idle`). -/
theorem idleStateIsFinal : Obligations.IdleStateIsFinal :=
  fun _ hb hhost k => run_of_idle hb hhost k

end Sys2Proof.Machine
end
